-- ==== Sys2Proof/Word.lean ====
section
/-! DEFINITION. The block's one unit of data: the byte (R8). -/

namespace Sys2Proof

/-- A byte: 8 bits, an unsigned value 0..255 (R8). -/
abbrev Byte := BitVec 8

/-- A byte sequence (R8): index 0 is the first byte received from the wire or written to the file. -/
abbrev Bytes := List Byte

end Sys2Proof
end

