-- ==== Sys2Proof/Config.lean ====
section
/-! DEFINITION. What is fixed when the block is built (the parameters of R6), and what its environment decides
freely (draws of the time source and answers of the sink): values no proof can see. -/

namespace Sys2Proof

/-- The parameters of R6 that an operation reads. They are arguments of the model: `State.cfg` holds them, no step
changes them (R26), and a statement about every state is a statement about every value of them (log entry 4).
`N_DU`, the fourth parameter, is the number of DU instances in the state. -/
structure Params where
  /-- `ETYPE_SWAP`: the reported ethertype is the byte-swapped legacy value (R133). -/
  etypeSwap : Bool
  /-- `CAP_BIG_ENDIAN`: the capture file's multi-byte fields are most significant byte first (R53). -/
  capBigEndian : Bool
  /-- `MAX_FRAME_LEN`: the largest operand buffer the block accepts (R22). -/
  maxFrameLen : Nat
deriving DecidableEq, Repr

/-- The values R6 takes for `ETYPE_SWAP` and `CAP_BIG_ENDIAN`. `MAX_FRAME_LEN` is OPEN there; the largest value R6
allows is a DESIGN CHOICE (log entry 4, unsafe for a claim that rests on it). -/
def Params.spec : Params := ⟨false, false, 0xffffffff⟩

/-- One draw `(sec, usec)` of the time source (R258): two natural numbers. -/
structure TimeDraw where
  sec : Nat
  usec : Nat
deriving DecidableEq, Repr, Inhabited

/-- One answer of the sink to a `SinkWrite` (R58). A failing write appends a proper part of what it was given, cut off
at the end; `fail kept` says how many bytes it keeps. -/
inductive SinkAnswer
  | ok
  | fail (kept : Nat)
deriving DecidableEq, Repr, Inhabited

/-- FREE VALUE: what `Now()` answers at its `k`-th draw where the state supplies none (R258, U8; log entry 5). -/
opaque Config.freeTime : Nat → TimeDraw

/-- FREE VALUE: what the sink answers at its `k`-th draw where the state supplies none (R58, U9; log entry 6). -/
opaque Config.freeSinkAnswer : Nat → SinkAnswer

end Sys2Proof
end

