-- ==== Sys2Proof/Syntax.lean ====
section
/-! DEFINITION. The twelve operations (R80) and the command ports they are issued at (R82, R262). -/

namespace Sys2Proof

/-- The operations of R80, one constructor for each row of spec/opcode_table.json. Operands other than `T` are not in
the command byte: they stand in the unit's operand registers (R83). -/
inductive Instr
  | fmtaddr
  | deceth
  | decip4
  | decxpt
  | dectcp
  | decudp
  | decicmp
  | decpay
  /-- `t` is the `T` bit, bit 4 of the command byte: "want text" (R81, R200). -/
  | dissect (t : Bool)
  | cwopen
  | cwwrite
  | cwclose
deriving DecidableEq, Repr

/-- The two kinds of unit (R2). -/
inductive UnitKind
  | du
  | cwu
deriving DecidableEq, Repr

/-- A command port: that of DU instance `k`, or that of the one CWU (R82, R262). -/
inductive Port
  | du (k : Nat)
  | cwu
deriving DecidableEq, Repr

/-- The kind of unit behind a port. -/
def Port.kind : Port → UnitKind
  | .du _ => .du
  | .cwu => .cwu

end Sys2Proof
end

