-- ==== Sys2Proof/WellFormed.lean ====
section
/-! DEFINITION. What the spec asks of a request, of the parameters and of the environment's draws before its rules
apply. An operation as a term has no operand that could be out of range (R83), so the check on it is that it stands at a
port of the unit that has it (R82). -/

namespace Sys2Proof

/-- The unit that executes an operation (the `unit` column of R80). -/
def Instr.unit : Instr → UnitKind
  | .fmtaddr => .du
  | .deceth => .du
  | .decip4 => .du
  | .decxpt => .du
  | .dectcp => .du
  | .decudp => .du
  | .decicmp => .du
  | .decpay => .du
  | .dissect _ => .du
  | .cwopen => .cwu
  | .cwwrite => .cwu
  | .cwclose => .cwu

/-- An operation is well formed at a port when the unit behind the port has it (R82, X2). -/
def Instr.wf (p : Port) (i : Instr) : Bool := i.unit == p.kind

/-- `0 < MAX_FRAME_LEN <= 2^32 - 1` (R6). -/
def Params.wf (c : Params) : Bool := decide (0 < c.maxFrameLen) && decide (c.maxFrameLen ≤ 0xffffffff)

/-- A request's operand buffer fits the block (R22, X6). -/
def Params.fits (c : Params) (b : Bytes) : Bool := decide (b.length ≤ c.maxFrameLen)

/-- A draw meets `TimeSourceWellFormed` (R258): `usec <= 999999`. -/
def TimeDraw.wf (d : TimeDraw) : Bool := decide (d.usec ≤ 999999)

/-- A sink answer is one the sink can give to a write of `n` bytes (R58): a failing write keeps fewer than `n`. -/
def SinkAnswer.wf (n : Nat) : SinkAnswer → Bool
  | .ok => true
  | .fail kept => decide (kept < n)

end Sys2Proof
end

