-- ==== Sys2Proof/Decode.lean ====
section
/-! DEFINITION. The command byte (R81): the operation table, the decoder at a port, the encoder. -/

namespace Sys2Proof

/-- One row of R81's table: a command byte `c` selects it when `c AND mask = pattern`. -/
structure OpRow where
  pattern : Byte
  mask : Byte
  /-- The operation, given the whole command byte (only DISSECT looks at it, for `T`). -/
  instr : Byte → Instr

/-- R81's table: OP 0x1 to 0xC. DISSECT alone leaves bit 4, `T`, free. -/
def opRows : List OpRow :=
  [ ⟨0x01, 0xFF, fun _ => .fmtaddr⟩,
    ⟨0x02, 0xFF, fun _ => .deceth⟩,
    ⟨0x03, 0xFF, fun _ => .decip4⟩,
    ⟨0x04, 0xFF, fun _ => .decxpt⟩,
    ⟨0x05, 0xFF, fun _ => .dectcp⟩,
    ⟨0x06, 0xFF, fun _ => .decudp⟩,
    ⟨0x07, 0xFF, fun _ => .decicmp⟩,
    ⟨0x08, 0xFF, fun _ => .decpay⟩,
    ⟨0x09, 0xEF, fun c => .dissect (c.getLsbD 4)⟩,
    ⟨0x0A, 0xFF, fun _ => .cwopen⟩,
    ⟨0x0B, 0xFF, fun _ => .cwwrite⟩,
    ⟨0x0C, 0xFF, fun _ => .cwclose⟩ ]

/-- A row is selected by a command byte (R81). -/
def OpRow.selects (r : OpRow) (c : Byte) : Bool := (c &&& r.mask) == r.pattern

/-- The operation a command byte names, or none where it is reserved at every port (R81, R82). -/
def decode (c : Byte) : Option Instr := (opRows.find? (·.selects c)).map (·.instr c)

/-- Why a command byte is refused at a port (R82). -/
inductive DecodeError
  /-- The byte matches no row of R81 (X1). -/
  | reserved
  /-- The byte is the other unit's (X2). -/
  | wrongPort
deriving DecidableEq, Repr

/-- What a command byte means at a port: "A DU code presented at the CWU's command port, or a CWU code at a DU's, is
reserved at that port" (R82). -/
def decodeAt (p : Port) (c : Byte) : Except DecodeError Instr :=
  match decode c with
  | none => .error .reserved
  | some i => if i.wf p then .ok i else .error .wrongPort

/-- A port at which a command byte can have a meaning: the CWU's for its three codes, DU 0's for every other byte. -/
def homePort (c : Byte) : Port :=
  match decode c with
  | some i => if i.unit = .cwu then .cwu else .du 0
  | none => .du 0

/-- The command byte whose bits are `w`, given as a whole byte. -/
def tableByte (nbits w : Nat) : Option Byte :=
  if nbits = 8 ∧ w < 256 then some (BitVec.ofNat 8 w) else none

/-- The operation this decoder reads from a row of spec/opcode_table.json whose bits are `w`. -/
def decodeTableWord (nbits w : Nat) : Option Instr := (tableByte nbits w).bind decode

/-- The `OP` field of an operation (R81). -/
def opField : Instr → BitVec 4
  | .fmtaddr => 0x1
  | .deceth => 0x2
  | .decip4 => 0x3
  | .decxpt => 0x4
  | .dectcp => 0x5
  | .decudp => 0x6
  | .decicmp => 0x7
  | .decpay => 0x8
  | .dissect _ => 0x9
  | .cwopen => 0xA
  | .cwwrite => 0xB
  | .cwclose => 0xC

/-- The `T` field of an operation: 0 for every operation but DISSECT (R81). -/
def tField : Instr → Bool
  | .dissect t => t
  | _ => false

/-- The command byte of an operation: `Z = 000`, `T`, `OP` (R81). -/
def encode (i : Instr) : Byte := 0#3 ++ BitVec.ofBool (tField i) ++ opField i

end Sys2Proof
end

