-- ==== Sys2Proof/Machine/State.lean ====
section
/-! DEFINITION. The state of the block: everything spec/10_state.md gives it, as plain data, and reset (R41). -/

namespace Sys2Proof.Machine

open Sys2Proof

/-! ### Codes that registers hold -/

/-- The error kinds of R240, with `OK`. -/
inductive Err
  | ok
  | truncatedFrame
  | malformedAddress
  | ioError
  | closedWriter
deriving DecidableEq, Repr

/-- The layer at which an error arose, `ST.elayer` of R23. -/
inductive Layer
  | notLayered
  | ethernet
  | ipv4
  | transport
deriving DecidableEq, Repr

/-- The writer state `CWS` of R25. Its code 3 is never produced and has no constructor. -/
inductive Cws
  | closed
  | opened
  | openFailed
deriving DecidableEq, Repr

/-- The transport variant tag `RES.xpt` of R33. Codes 5 to 7 are never produced and have no constructor. -/
inductive XptTag
  | notDecoded
  | icmp
  | tcp
  | udp
  | unknown
deriving DecidableEq, Repr

/-- The text tag `RES.txt.tag` of R34. Code 3 is never produced and has no constructor. -/
inductive TxtTag
  | notTried
  | text
  | binary
deriving DecidableEq, Repr

/-! ### Result records (R28 to R36) -/

/-- `RES.eth` (R28). -/
structure EthRec where
  destAddress : Bytes
  srcAddress : Bytes
  ethertype : BitVec 16
  payload : Bytes
  destStr : Bytes
  srcStr : Bytes
deriving DecidableEq, Repr

/-- `RES.ip4` (R29). -/
structure Ip4Rec where
  version : BitVec 4
  headerLength : BitVec 6
  ttl : Byte
  protocol : Byte
  srcRaw : Bytes
  dstRaw : Bytes
  srcAddr : Bytes
  dstAddr : Bytes
  payload : Bytes
deriving DecidableEq, Repr

/-- `RES.tcp` (R30). -/
structure TcpRec where
  srcPort : BitVec 16
  dstPort : BitVec 16
  sequence : BitVec 32
  acknowledgment : BitVec 32
  flagUrg : Bool
  flagAck : Bool
  flagPsh : Bool
  flagRst : Bool
  flagSyn : Bool
  flagFin : Bool
  payload : Bytes
deriving DecidableEq, Repr

/-- `RES.udp` (R31). -/
structure UdpRec where
  srcPort : BitVec 16
  dstPort : BitVec 16
  size : BitVec 16
  payload : Bytes
deriving DecidableEq, Repr

/-- `RES.icmp` (R32). -/
structure IcmpRec where
  type : Byte
  code : Byte
  checksum : BitVec 16
  payload : Bytes
deriving DecidableEq, Repr

/-- The result area `RES` of one DU. `none` is the spec's own "holds no value" (R37), so a record is written once and
whole; the fields of one record hold a value together (R28 to R32). -/
structure Res where
  fmt : Option Bytes
  eth : Option EthRec
  ip4 : Option Ip4Rec
  tcp : Option TcpRec
  udp : Option UdpRec
  icmp : Option IcmpRec
  unk : Option Bytes
  xpt : Option XptTag
  txtTag : Option TxtTag
  txtBytes : Option Bytes
  /-- The decoded scalar values, 21 bits each (R34). -/
  txtChars : Option (List (BitVec 21))
  ethValid : Option Bool
  ip4Valid : Option Bool
deriving DecidableEq, Repr

/-- `RES` with no field holding a value: after reset (R41), and as every DU operation begins (R37). -/
def Res.empty : Res := ⟨none, none, none, none, none, none, none, none, none, none, none, none, none⟩

/-! ### Units -/

/-- Which operand registers of a unit the host has written since reset. The model's own, for X8: nothing but a host
read of an operand register looks at it (log entry 14). BUFLEN is written with BUF. -/
structure Written where
  cmd : Bool
  buf : Bool
  proto : Bool
  ltype : Bool
deriving DecidableEq, Repr

/-- No operand register written yet. -/
def Written.nothing : Written := ⟨false, false, false, false⟩

/-- One dissector unit (R22, R23, R262). BUFLEN is the length of `buf` (log entry 8). -/
structure Du where
  cmd : Byte
  buf : Bytes
  proto : Byte
  written : Written
  st : Byte
  res : Res
deriving DecidableEq, Repr

/-- A DU right after reset (R41). The operand registers' values are a DESIGN CHOICE (log entry 3, unsafe). ST is 0x00 as
R41 says, where D28 leaves it unspecified: DEDUCED (log entry 19, unsafe). -/
def Du.reset : Du := ⟨0x00, [], 0x00, Written.nothing, 0x00, Res.empty⟩

/-- The capture writer unit (R22, R23, R25). BUFLEN is the length of `buf` (log entry 8). -/
structure Cwu where
  cmd : Byte
  buf : Bytes
  ltype : BitVec 32
  written : Written
  st : Byte
  cws : Cws
deriving DecidableEq, Repr

/-- The CWU right after reset (R41). The operand registers' values are a DESIGN CHOICE (log entry 3, unsafe). ST is 0x00
as R41 says, where D28 leaves it unspecified: DEDUCED (log entry 19, unsafe). -/
def Cwu.reset : Cwu := ⟨0x00, [], 0, Written.nothing, 0x00, .closed⟩

/-! ### The environment -/

/-- What the environment answers: the draws supplied, oldest first, and how many were made. A draw beyond those
supplied is a free value of Config at the count (log entries 5 and 6). -/
structure Env where
  times : List TimeDraw
  timesUsed : Nat
  answers : List SinkAnswer
  answersUsed : Nat
deriving DecidableEq, Repr

/-- The operand registers of R22, as the host names them. -/
inductive OperandReg
  | cmd
  | buf
  | buflen
  | proto
  | ltype
deriving DecidableEq, Repr

/-- The named fields of `RES` (R28 to R36), as the host names them. -/
inductive ResField
  | fmt
  | ethDestAddress | ethSrcAddress | ethEthertype | ethPayload | ethDestStr | ethSrcStr
  | ip4Version | ip4HeaderLength | ip4Ttl | ip4Protocol | ip4SrcRaw | ip4DstRaw | ip4SrcAddr | ip4DstAddr | ip4Payload
  | tcpSrcPort | tcpDstPort | tcpSequence | tcpAcknowledgment
  | tcpFlagUrg | tcpFlagAck | tcpFlagPsh | tcpFlagRst | tcpFlagSyn | tcpFlagFin | tcpPayload
  | udpSrcPort | udpDstPort | udpSize | udpPayload
  | icmpType | icmpCode | icmpChecksum | icmpPayload
  | unkPayload | xpt | txtTag | txtBytes | txtChars | ethValid | ip4Valid
deriving DecidableEq, Repr

/-- What a host read delivers: a number, a byte sequence, or a sequence of scalar values. -/
inductive HostVal
  | num (v : Nat)
  | bytes (b : Bytes)
  | chars (cs : List (BitVec 21))
deriving DecidableEq, Repr

/-- What the host can do other than issue a command (R22, R23, R25, R37, R210, R270). -/
inductive Access
  /-- Write BUF, and BUFLEN with its length, of the unit at a port. -/
  | loadBuf (p : Port) (b : Bytes)
  /-- Write PROTO of DU `k`. -/
  | loadProto (k : Nat) (v : Byte)
  /-- Write LTYPE of the CWU. -/
  | loadLtype (v : BitVec 32)
  /-- Present a sink with this content, for the next CWOPEN to bind. -/
  | offerSink (content : Bytes)
  /-- Read ST of the unit at a port. -/
  | readSt (p : Port)
  /-- Read CWS. -/
  | readCws
  /-- Read a field of RES of DU `k`. -/
  | readRes (k : Nat) (f : ResField)
  /-- Read an operand register of the unit at a port. -/
  | readOperand (p : Port) (r : OperandReg)
  /-- Reset the block. -/
  | reset
deriving DecidableEq, Repr

/-- One event of the host: a command byte at a port, or another access. Events come one at a time (R21). -/
inductive HostEvent
  | issue (p : Port) (c : Byte)
  | access (a : Access)
deriving DecidableEq, Repr

/-! ### The whole state -/

/-- The block and the part of its environment the spec describes. -/
structure State where
  /-- The parameters of R6; no step changes them (R26). -/
  cfg : Params
  /-- The DU instances; `N_DU` is their number (R6, R262). -/
  dus : List Du
  /-- The model's own: the DU whose command port the latest DU request is at (log entry 13). -/
  sel : Nat
  cwu : Cwu
  /-- `SINK` (R27). It is owned by the CWU while `CWS` is not `CLOSED` (R25). -/
  sink : Bytes
  /-- Content of the sink the host presents for the next CWOPEN (R210, R273). CWOPEN does not take it away (log entry
  20). -/
  offered : Bytes
  env : Env
  /-- What the host will do, in order (R21; log entry 1). -/
  inbox : List HostEvent
  /-- What the latest host read delivered (log entry 13). -/
  hostRead : Option HostVal
deriving DecidableEq, Repr

/-- The block right after reset (R41): one DU (the default of R6), the writer `CLOSED`, no sink bound, both `ST` zero,
no result field holding a value; nothing supplied by the environment and no event of the host. -/
def State.reset : State :=
  { cfg := Params.spec
    dus := [Du.reset]
    sel := 0
    cwu := Cwu.reset
    sink := []
    offered := []
    env := ⟨[], 0, [], 0⟩
    inbox := []
    hostRead := none }

/-! ### How a step can stop -/

/-- Why the machine stops with a fault. -/
inductive Fault
  /-- A read of BUF at an offset that does not exist (R50). Raised by the operand reads of Machine/Operands.lean; R51
  says no operation makes one, so it is never reached. Safe: the model stops. -/
  | bufOutOfRange
deriving DecidableEq, Repr

/-- Why a request has no meaning (R11: "refused"). Each stops the model, which is safe. -/
inductive Refusal
  /-- An operation whose meaning is not written: raised by an arm of Dispatch only; no arm does. -/
  | notModelled (mnemonic : String)
  /-- A command byte that matches no row of R81 (R82, X1). Raised by the fetch of a request. -/
  | reservedCommand (c : Byte)
  /-- A command byte of the other unit (R82, X2). Raised by the fetch of a request. -/
  | wrongPort (c : Byte)
  /-- A DU port `k >= N_DU`, which the block does not have (R262; log entry 15). Raised by DU operations and host
  accesses. -/
  | noSuchUnit (k : Nat)
  /-- An operand register the unit does not have (R22; log entry 15). Raised by a host read. -/
  | noSuchRegister
  /-- A request with `BUFLEN > MAX_FRAME_LEN` (R22, X6). Raised by operations that read BUF and by a host write of BUF. -/
  | frameTooLong
  /-- CWOPEN while `CWS = OPEN` (R222, X3). Raised by CWOPEN. -/
  | cwopenWhileOpen
  /-- CWOPEN while `CWS = OPEN_FAILED` (R221, R222, X4). Raised by CWOPEN. -/
  | cwopenWhileOpenFailed
  /-- CWWRITE while `CWS = OPEN_FAILED` (R221, R222, X5). Raised by CWWRITE. -/
  | cwwriteWhileOpenFailed
  /-- A host read of a RES field that holds no value (R37, X7). Raised by a host read. -/
  | resHoldsNoValue (f : ResField)
  /-- A host read of an operand register before the host has written it (R41, X8). Raised by a host read. -/
  | operandNotWritten (r : OperandReg)
deriving DecidableEq, Repr

end Sys2Proof.Machine
end

