-- ==== Sys2Proof/Machine/Flags.lean ====
section
/-! DEFINITION. The block has no condition flags (R24). Here stand the codes and layouts of what is status-like: `ST`
(R23), `CWS` (R25), `RES.xpt` (R33) and `RES.txt.tag` (R34). -/

namespace Sys2Proof.Machine

open Sys2Proof

/-- The code of an error kind, the value of `ST.err` (R23, R240). -/
def Err.code : Err → BitVec 3
  | .ok => 0
  | .truncatedFrame => 1
  | .malformedAddress => 2
  | .ioError => 3
  | .closedWriter => 4

/-- The code of a layer, the value of `ST.elayer` (R23). -/
def Layer.code : Layer → BitVec 3
  | .notLayered => 0
  | .ethernet => 1
  | .ipv4 => 2
  | .transport => 3

/-- The status byte: bits 7:6 zero, `elayer` in 5:3, `err` in 2:0 (R23). -/
def mkSt (e : Err) (l : Layer) : Byte := 0#2 ++ l.code ++ e.code

/-- `ST.err`, bits 2:0 (R23). -/
def stErr (st : Byte) : BitVec 3 := st.extractLsb' 0 3

/-- `ST.elayer`, bits 5:3 (R23). -/
def stElayer (st : Byte) : BitVec 3 := st.extractLsb' 3 3

/-- Bits 7:6 of `ST`, reserved (R23). -/
def stReserved (st : Byte) : BitVec 2 := st.extractLsb' 6 2

/-- The code of `CWS` (R25). -/
def Cws.code : Cws → BitVec 2
  | .closed => 0
  | .opened => 1
  | .openFailed => 2

/-- The code of `RES.xpt` (R33). -/
def XptTag.code : XptTag → BitVec 3
  | .notDecoded => 0
  | .icmp => 1
  | .tcp => 2
  | .udp => 3
  | .unknown => 4

/-- The code of `RES.txt.tag` (R34). -/
def TxtTag.code : TxtTag → BitVec 2
  | .notTried => 0
  | .text => 1
  | .binary => 2

end Sys2Proof.Machine
end

