-- ==== Sys2Proof/Machine/Operands.lean ====
section
/-! DEFINITION. Operand forms: reads of the operand buffer (R50, R51, R54), the bit fields taken from what is read (R7,
R91), and the byte order of what is written (R9, R53). -/

namespace Sys2Proof.Machine

open Sys2Proof

/-- How the body of a decoder ends early. -/
inductive Stop
  /-- `raise E` (R10, R244). -/
  | raise (e : Err)
  /-- A read of BUF at an offset that does not exist; R51 says no rule makes one. -/
  | outOfRange
deriving DecidableEq, Repr

/-- The body of a decoder: a result, or how it stopped. -/
abbrev Body (α : Type) := Except Stop α

/-- `if n < k then raise TruncatedFrame`: the length check every decoder makes before it reads (R51). -/
def requireLen (k : Nat) (b : Bytes) : Body Unit :=
  if b.length < k then .error (.raise .truncatedFrame) else .ok ()

/-- `b[i:j)`, defined only for `0 <= i <= j <= len(b)` (R8). -/
def slice (b : Bytes) (i j : Nat) : Option Bytes :=
  if i ≤ j ∧ j ≤ b.length then some ((b.drop i).take (j - i)) else none

/-- `BUF[i:j)` inside a decoder (R10). -/
def bufSlice (b : Bytes) (i j : Nat) : Body Bytes :=
  match slice b i j with
  | some x => .ok x
  | none => .error .outOfRange

/-- Big-endian assembly of bytes into one unsigned number: the byte at the lower offset is the more significant (R9, R54). -/
def beValue (b : Bytes) : Nat := b.foldl (fun acc x => acc * 256 + x.toNat) 0

/-- `MemRead(off, n)` (R10): the `n` bytes at `off`, assembled big-endian. -/
def memRead (b : Bytes) (off n : Nat) : Body Nat := do
  let x ← bufSlice b off (off + n)
  return beValue x

/-- `MemRead(off, 1)`, which is `BUF[off]`. -/
def memRead8 (b : Bytes) (off : Nat) : Body Byte := do
  let v ← memRead b off 1
  return BitVec.ofNat 8 v

/-- `MemRead(off, 2)` as a 16-bit field. -/
def memRead16 (b : Bytes) (off : Nat) : Body (BitVec 16) := do
  let v ← memRead b off 2
  return BitVec.ofNat 16 v

/-- `MemRead(off, 4)` as a 32-bit field. -/
def memRead32 (b : Bytes) (off : Nat) : Body (BitVec 32) := do
  let v ← memRead b off 4
  return BitVec.ofNat 32 v

/-- The high nibble `v[7:4]` of a byte (R7). -/
def highNibble (v : Byte) : BitVec 4 := v.extractLsb' 4 4

/-- The low nibble `v[3:0]` of a byte (R7). -/
def lowNibble (v : Byte) : BitVec 4 := v.extractLsb' 0 4

/-- A header length in 32-bit words as a number of bytes: a 4-bit value times 4 (R91, R92 (a)). -/
def wordsToBytes (v : BitVec 4) : Nat := v.toNat * 4

/-- `swap16(v)` (R9). -/
def swap16 (v : BitVec 16) : BitVec 16 := v.extractLsb' 0 8 ++ v.extractLsb' 8 8

/-- `LE32bytes(v)` (R9). -/
def le32bytes (v : BitVec 32) : Bytes :=
  [v.extractLsb' 0 8, v.extractLsb' 8 8, v.extractLsb' 16 8, v.extractLsb' 24 8]

/-- `BE32bytes(v)` (R9). -/
def be32bytes (v : BitVec 32) : Bytes :=
  [v.extractLsb' 24 8, v.extractLsb' 16 8, v.extractLsb' 8 8, v.extractLsb' 0 8]

/-- `LE16bytes(v)` (R9). -/
def le16bytes (v : BitVec 16) : Bytes := [v.extractLsb' 0 8, v.extractLsb' 8 8]

/-- `BE16bytes(v)` (R9). -/
def be16bytes (v : BitVec 16) : Bytes := [v.extractLsb' 8 8, v.extractLsb' 0 8]

/-- `U32(v)` under `CAP_BIG_ENDIAN = big` (R9, R53). -/
def u32bytes (big : Bool) (v : BitVec 32) : Bytes := if big then be32bytes v else le32bytes v

/-- `U16(v)` under `CAP_BIG_ENDIAN = big` (R9, R53). -/
def u16bytes (big : Bool) (v : BitVec 16) : Bytes := if big then be16bytes v else le16bytes v

/-- `I32(v)`: `U32` of the two's-complement pattern (R9). -/
def i32bytes (big : Bool) (v : Int) : Bytes := u32bytes big (BitVec.ofInt 32 v)

end Sys2Proof.Machine
end

