-- ==== Sys2Proof/Machine/Ops.lean ====
section
/-! DEFINITION. Shared operations: a DU operation from its operands to RES and ST, the sink primitive (R58), the time
source (R258), the delivery of an error in each unit (R244), and reset (R41, R270).

Delivery of an error is `atLayer` in a DU and `raiseCwu` in the CWU. There is no return from it: "There is no return
instruction and nothing to restore" (R246). -/

namespace Sys2Proof.Machine

open Sys2Proof

/-! ### DU operations -/

/-- DU `k` replaced; nothing else changes (R262). -/
def State.setDu (s : State) (k : Nat) (u : Du) : State := { s with dus := s.dus.set k u }

/-- What a DU operation leaves in its unit: `ST.err`, `ST.elayer` and the whole of RES (R37, R38). -/
structure DuAnswer where
  err : Err
  elayer : Layer
  res : Res
deriving DecidableEq, Repr

/-- `return OK` with these results (R10). -/
def returnOk (res : Res) : Except Fault DuAnswer := .ok ⟨.ok, .notLayered, res⟩

/-- TAKING AN ERROR in a DU (R244): run one layer's body; if it raises, the operation ends at once with that error,
`ST.elayer` naming `layer`, and RES holding `outer`, the records written before that layer (nothing, but for DISSECT:
R199). Otherwise go on with its result. -/
def atLayer {α : Type} (layer : Layer) (outer : Res) (x : Body α) (k : α → Except Fault DuAnswer) : Except Fault DuAnswer :=
  match x with
  | .ok a => k a
  | .error (.raise e) => .ok ⟨e, layer, outer⟩
  | .error .outOfRange => .error .bufOutOfRange

/-- A DU operation (R38): a function of the unit's operands, whose answer becomes the unit's ST and RES. The unit is the
one whose port the request is at; its operand must fit the block (R22, X6). -/
def runDu (s : State) (f : Du → Except Fault DuAnswer) : Host.Outcome State Fault Refusal :=
  match s.dus[s.sel]? with
  | none => .refused (.noSuchUnit s.sel)
  | some u =>
    if s.cfg.fits u.buf then
      match f u with
      | .ok a => .next (s.setDu s.sel { u with st := mkSt a.err a.elayer, res := a.res })
      | .error e => .fault e
    else .refused .frameTooLong

/-! ### CWU operations -/

/-- The CWU's status and writer state at the end of an operation (R23, R25). -/
def State.endCwu (s : State) (e : Err) (c : Cws) : State :=
  { s with cwu := { s.cwu with st := mkSt e .notLayered, cws := c } }

/-- TAKING AN ERROR in the CWU (R244): ST gets the error, CWS what the rule says; SINK is as the operation left it. -/
def raiseCwu (s : State) (e : Err) (c : Cws) : State := s.endCwu e c

/-- One draw of `Now()` (R258): the oldest the state supplies, else the free value. -/
def drawTime (s : State) : TimeDraw × State :=
  match s.env.times with
  | d :: rest => (d, { s with env := { s.env with times := rest, timesUsed := s.env.timesUsed + 1 } })
  | [] => (Config.freeTime s.env.timesUsed, { s with env := { s.env with timesUsed := s.env.timesUsed + 1 } })

/-- One answer of the sink (R58): the oldest the state supplies, else the free value. -/
def drawAnswer (s : State) : SinkAnswer × State :=
  match s.env.answers with
  | a :: rest => (a, { s with env := { s.env with answers := rest, answersUsed := s.env.answersUsed + 1 } })
  | [] => (Config.freeSinkAnswer s.env.answersUsed, { s with env := { s.env with answersUsed := s.env.answersUsed + 1 } })

/-- How many of `n` bytes a failing write keeps: fewer than `n` (R58), whatever number the answer names. -/
def keptOf (kept n : Nat) : Nat := min kept (n - 1)

/-- What the sink's answer does to its content: all of `bs`, or the bytes a failing write keeps (R58). -/
def appended (a : SinkAnswer) (bs : Bytes) : Bytes :=
  match a with
  | .ok => bs
  | .fail kept => bs.take (keptOf kept bs.length)

/-- The answer is `ok` (R58). -/
def SinkAnswer.isOk (a : SinkAnswer) : Bool :=
  match a with
  | .ok => true
  | .fail _ => false

/-- `SinkWrite(bs)` (R58): whether the sink took it, and the state after. A write of no bytes is always taken and asks
the sink nothing (log entry 7). -/
def sinkWrite (bs : Bytes) (s : State) : Bool × State :=
  if bs.isEmpty then (true, s)
  else
    let d := drawAnswer s
    (SinkAnswer.isOk d.1, { d.2 with sink := d.2.sink ++ appended d.1 bs })

/-! ### Reset -/

/-- Reset of the block (R41, R270): every unit as after reset, the sink released with nothing written to it. The
parameters, and what belongs to the environment, are not the block's to reset (log entry 16). -/
def State.resetBlock (s : State) : State :=
  { s with dus := s.dus.map (fun _ => Du.reset), cwu := Cwu.reset }

end Sys2Proof.Machine
end

