-- ==== Sys2Proof/Machine/Capture.lean ====
section
/-! DEFINITION. CaptureWriter (spec/46_capture_writer.md): CWOPEN, CWWRITE, CWCLOSE. -/

namespace Sys2Proof.Machine

open Sys2Proof

/-- The 24-byte global header (R89, R211): magic, version 2.4, thiszone, sigfigs, snaplen, link type. -/
def globalHeader (big : Bool) (ltype : BitVec 32) : Bytes :=
  u32bytes big 0xa1b2c3d4 ++ u16bytes big 2 ++ u16bytes big 4 ++ i32bytes big 0 ++ u32bytes big 0 ++
    u32bytes big 65535 ++ u32bytes big ltype

/-- The 16-byte record header (R90, R216, R217): the time, seconds modulo 2^32, and the length twice. -/
def recordHeader (big : Bool) (d : TimeDraw) (n : Nat) : Bytes :=
  u32bytes big (BitVec.ofNat 32 d.sec) ++ u32bytes big (BitVec.ofNat 32 d.usec) ++
    u32bytes big (BitVec.ofNat 32 n) ++ u32bytes big (BitVec.ofNat 32 n)

/-- Bind the presented sink and write the global header (R210); a failing header write leaves the writer CLOSED with
the sink released (R213). DESIGN CHOICE (log entry 20, unsafe): the sink stays presented, so a CWOPEN before which the
host presents no new sink binds the earlier presented content again, as a fresh sink; R223 does not say what it binds. -/
def openWriter (s : State) : State :=
  let w := sinkWrite (globalHeader s.cfg.capBigEndian s.cwu.ltype) { s with sink := s.offered }
  if w.1 then w.2.endCwu .ok .opened else raiseCwu w.2 .ioError .closed

/-- Draw the time, then two sink writes, header before frame (R214, R215). A failing write leaves OPEN_FAILED, and a
failing first write skips the second (R221, R245 (d)). -/
def writeRecord (s : State) : State :=
  let d := drawTime s
  let h := sinkWrite (recordHeader s.cfg.capBigEndian d.1 s.cwu.buf.length) d.2
  if h.1 then
    let f := sinkWrite s.cwu.buf h.2
    if f.1 then f.2.endCwu .ok .opened else raiseCwu f.2 .ioError .openFailed
  else raiseCwu h.2 .ioError .openFailed

/-- CWOPEN (R210, R222). -/
def execCwopen (s : State) : Host.Outcome State Fault Refusal :=
  match s.cwu.cws with
  | .closed => .next (openWriter s)
  | .opened => .refused .cwopenWhileOpen
  | .openFailed => .refused .cwopenWhileOpenFailed

/-- CWWRITE (R214, R220, R222). Its operand must fit the block (R22, X6). -/
def execCwwrite (s : State) : Host.Outcome State Fault Refusal :=
  if s.cfg.fits s.cwu.buf then
    match s.cwu.cws with
    | .closed => .next (raiseCwu s .closedWriter .closed)
    | .opened => .next (writeRecord s)
    | .openFailed => .refused .cwwriteWhileOpenFailed
  else .refused .frameTooLong

/-- CWCLOSE (R218, R219): from every state to CLOSED, the sink released; nothing is written to it. -/
def execCwclose (s : State) : Host.Outcome State Fault Refusal :=
  .next (s.endCwu .ok .closed)

end Sys2Proof.Machine
end

