-- ==== Sys2Proof/Machine/Address.lean ====
section
/-! DEFINITION. AddressFormatter (spec/40_address_formatter.md): FMT and FMTADDR; the decimal form of IPv4 addresses. -/

namespace Sys2Proof.Machine

open Sys2Proof

/-- `HEX(d)`: the ASCII code of an upper-case hex digit (R121, R97). -/
def hexDigit (d : BitVec 4) : Byte :=
  if d.toNat ≤ 9 then 0x30 + d.setWidth 8 else 0x41 + (d.setWidth 8 - 10)

/-- The two hex digits of a byte, high first (R121). -/
def hexByte (v : Byte) : Bytes := [hexDigit (highNibble v), hexDigit (lowNibble v)]

/-- `FMT(a)` (R121): two hex digits for each byte, `':'` (0x3A) between bytes. -/
def fmtAddr : Bytes → Bytes
  | [] => []
  | [v] => hexByte v
  | v :: w :: rest => hexByte v ++ 0x3A :: fmtAddr (w :: rest)

/-- The ASCII code of a decimal digit (R97). -/
def decDigit (d : Nat) : Byte := BitVec.ofNat 8 (0x30 + d)

/-- `DEC(v)`: the decimal numeral of a byte, with no leading zeros (R143). -/
def decByte (v : Byte) : Bytes :=
  let n := v.toNat
  if n ≤ 9 then [decDigit n]
  else if n ≤ 99 then [decDigit (n / 10), decDigit (n % 10)]
  else [decDigit (n / 100), decDigit (n / 10 % 10), decDigit (n % 10)]

/-- `DOTTED(a)` (R143): the numerals of the bytes, `'.'` (0x2E) between them. -/
def dotted : Bytes → Bytes
  | [] => []
  | [v] => decByte v
  | v :: w :: rest => decByte v ++ 0x2E :: dotted (w :: rest)

/-- FMTADDR from its length check to its last result (R120). -/
def fmtBody (b : Bytes) : Body Bytes :=
  if b.length ≠ 6 then .error (.raise .malformedAddress)
  else do
    let a ← bufSlice b 0 6
    return fmtAddr a

/-- FMTADDR (R120). -/
def execFmtaddr (s : State) : Host.Outcome State Fault Refusal :=
  runDu s fun u => atLayer .notLayered Res.empty (fmtBody u.buf) fun f => returnOk { Res.empty with fmt := some f }

end Sys2Proof.Machine
end

