-- ==== Sys2Proof/Machine/Ethernet.lean ====
section
/-! DEFINITION. EthernetDecoder (spec/41_ethernet.md): DECETH. -/

namespace Sys2Proof.Machine

open Sys2Proof

/-- ETH_BODY: the 14-byte Ethernet II header and what follows it (R130, R84). `swap` is `ETYPE_SWAP` (R133). -/
def ethBody (swap : Bool) (b : Bytes) : Body EthRec := do
  requireLen 14 b
  let dst ← bufSlice b 0 6
  let src ← bufSlice b 6 12
  let e ← memRead16 b 12
  let p ← bufSlice b 14 b.length
  return { destAddress := dst
           srcAddress := src
           ethertype := if swap then swap16 e else e
           payload := p
           destStr := fmtAddr dst
           srcStr := fmtAddr src }

/-- "Ethertype is IPv4": the bytes at offsets 12 and 13 are `08 00`, under either setting of `ETYPE_SWAP` (R93, R134). -/
def etherIsIpv4 (b : Bytes) : Body Bool := do
  let h ← memRead8 b 12
  let l ← memRead8 b 13
  return h == 0x08 && l == 0x00

/-- DECETH (R130). -/
def execDeceth (s : State) : Host.Outcome State Fault Refusal :=
  runDu s fun u => atLayer .notLayered Res.empty (ethBody s.cfg.etypeSwap u.buf) fun r =>
    returnOk { Res.empty with eth := some r }

end Sys2Proof.Machine
end

