-- ==== Sys2Proof/Machine/Ipv4.lean ====
section
/-! DEFINITION. IPv4Decoder (spec/42_ipv4.md): DECIP4. -/

namespace Sys2Proof.Machine

open Sys2Proof

/-- IP4_BODY: two length checks in R144's order, the fields of R141, the payload from the header length on (R140, R85).
The version (R142) and an IHL below 5 (R145) are not tested. -/
def ip4Body (b : Bytes) : Body Ip4Rec := do
  requireLen 20 b
  let b0 ← memRead8 b 0
  let hl := wordsToBytes (lowNibble b0)
  requireLen hl b
  let ttl ← memRead8 b 8
  let proto ← memRead8 b 9
  let src ← bufSlice b 12 16
  let dst ← bufSlice b 16 20
  let p ← bufSlice b hl b.length
  return { version := highNibble b0
           headerLength := BitVec.ofNat 6 hl
           ttl := ttl
           protocol := proto
           srcRaw := src
           dstRaw := dst
           srcAddr := dotted src
           dstAddr := dotted dst
           payload := p }

/-- DECIP4 (R140). -/
def execDecip4 (s : State) : Host.Outcome State Fault Refusal :=
  runDu s fun u => atLayer .notLayered Res.empty (ip4Body u.buf) fun r => returnOk { Res.empty with ip4 := some r }

end Sys2Proof.Machine
end

