-- ==== Sys2Proof/Machine/Payload.lean ====
section
/-! DEFINITION. PayloadDecoder (spec/44_payload.md): DECPAY, with R186's definition of well-formed UTF-8 and R187's
scalar values. Both are the spec's own general-knowledge passages (G1, G2; log entry 17). -/

namespace Sys2Proof.Machine

open Sys2Proof

/-- One row of R186's table: the range of the first byte and of each byte after it. -/
structure Utf8Row where
  first : Byte × Byte
  rest : List (Byte × Byte)

/-- R186's table of byte patterns, in its order. -/
def utf8Rows : List Utf8Row :=
  [ ⟨(0x00, 0x7F), []⟩,
    ⟨(0xC2, 0xDF), [(0x80, 0xBF)]⟩,
    ⟨(0xE0, 0xE0), [(0xA0, 0xBF), (0x80, 0xBF)]⟩,
    ⟨(0xE1, 0xEC), [(0x80, 0xBF), (0x80, 0xBF)]⟩,
    ⟨(0xED, 0xED), [(0x80, 0x9F), (0x80, 0xBF)]⟩,
    ⟨(0xEE, 0xEF), [(0x80, 0xBF), (0x80, 0xBF)]⟩,
    ⟨(0xF0, 0xF0), [(0x90, 0xBF), (0x80, 0xBF), (0x80, 0xBF)]⟩,
    ⟨(0xF1, 0xF3), [(0x80, 0xBF), (0x80, 0xBF), (0x80, 0xBF)]⟩,
    ⟨(0xF4, 0xF4), [(0x80, 0x8F), (0x80, 0xBF), (0x80, 0xBF)]⟩ ]

/-- A byte lies in a range, both ends included. -/
def inRange (r : Byte × Byte) (v : Byte) : Bool := decide (r.1.toNat ≤ v.toNat) && decide (v.toNat ≤ r.2.toNat)

/-- Bytes that lie in these ranges one by one, split off the front of a sequence. -/
def takeRanges : List (Byte × Byte) → Bytes → Option (Bytes × Bytes)
  | [], b => some ([], b)
  | _ :: _, [] => none
  | r :: rs, v :: b =>
    if inRange r v then (takeRanges rs b).map fun x => (v :: x.1, x.2) else none

/-- The scalar value of one pattern, by its length (R187). -/
def utf8Scalar : Bytes → Nat
  | [b0] => b0.toNat
  | [b0, b1] => (b0 &&& 0x1F).toNat * 64 + (b1 &&& 0x3F).toNat
  | [b0, b1, b2] => (b0 &&& 0x0F).toNat * 4096 + (b1 &&& 0x3F).toNat * 64 + (b2 &&& 0x3F).toNat
  | [b0, b1, b2, b3] =>
    (b0 &&& 0x07).toNat * 262144 + (b1 &&& 0x3F).toNat * 4096 + (b2 &&& 0x3F).toNat * 64 + (b3 &&& 0x3F).toNat
  | _ => 0

/-- The pattern a non-empty sequence begins with, and what follows it: "the patterns have distinct first-byte ranges",
so at most one row fits (R186). -/
def utf8Next (v : Byte) (b : Bytes) : Option (Bytes × Bytes) :=
  match utf8Rows.find? (fun r => inRange r.first v) with
  | none => none
  | some r => (takeRanges r.rest b).map fun x => (v :: x.1, x.2)

/-- Patterns matched from the left with no bytes left over (R186); `fuel` bounds their number. -/
def utf8Go : Nat → Bytes → Option (List (BitVec 21))
  | _, [] => some []
  | 0, _ :: _ => none
  | fuel + 1, v :: b =>
    match utf8Next v b with
    | none => none
    | some (p, rest) => (utf8Go fuel rest).map fun cs => BitVec.ofNat 21 (utf8Scalar p) :: cs

/-- `DecodeUTF8(b)` (R187), none where `b` is not well formed (R186). A pattern has at least one byte, so the length of
`b` is fuel enough. -/
def decodeUtf8 (b : Bytes) : Option (List (BitVec 21)) := utf8Go b.length b

/-- `WellFormedUTF8(b)` (R186). -/
def wellFormedUtf8 (b : Bytes) : Bool := (decodeUtf8 b).isSome

/-- PAY_BODY (R185): the bytes unchanged, the tag, and for TEXT the scalar values. It cannot fail. -/
def Res.withText (res : Res) (b : Bytes) : Res :=
  match decodeUtf8 b with
  | some cs => { res with txtBytes := some b, txtTag := some .text, txtChars := some cs }
  | none => { res with txtBytes := some b, txtTag := some .binary }

/-- DECPAY (R185). -/
def execDecpay (s : State) : Host.Outcome State Fault Refusal :=
  runDu s fun u => returnOk (Res.empty.withText u.buf)

end Sys2Proof.Machine
end

