-- ==== Sys2Proof/Machine/Transport.lean ====
section
/-! DEFINITION. TransportDecoder family (spec/43_transport.md): DECXPT, DECTCP, DECUDP, DECICMP. -/

namespace Sys2Proof.Machine

open Sys2Proof

/-- TCP_BODY: the 14-byte prefix, six flags each from its own bit, the payload offset clamped to the buffer (R160, R161,
R162, R163, R86). -/
def tcpBody (b : Bytes) : Body TcpRec := do
  requireLen 14 b
  let sp ← memRead16 b 0
  let dp ← memRead16 b 2
  let sq ← memRead32 b 4
  let ak ← memRead32 b 8
  let w ← memRead16 b 12
  let off := wordsToBytes (w.extractLsb' 12 4)
  let p ← bufSlice b (min off b.length) b.length
  return { srcPort := sp
           dstPort := dp
           sequence := sq
           acknowledgment := ak
           flagUrg := w.getLsbD 5
           flagAck := w.getLsbD 4
           flagPsh := w.getLsbD 3
           flagRst := w.getLsbD 2
           flagSyn := w.getLsbD 1
           flagFin := w.getLsbD 0
           payload := p }

/-- UDP_BODY: ports, two bytes skipped, `size` from offsets 6..7, payload from offset 8 (R165, R166, R167, R87). -/
def udpBody (b : Bytes) : Body UdpRec := do
  requireLen 8 b
  let sp ← memRead16 b 0
  let dp ← memRead16 b 2
  let sz ← memRead16 b 6
  let p ← bufSlice b 8 b.length
  return { srcPort := sp, dstPort := dp, size := sz, payload := p }

/-- ICMP_BODY: type, code, checksum, payload from offset 4 (R170, R88). -/
def icmpBody (b : Bytes) : Body IcmpRec := do
  requireLen 4 b
  let ty ← memRead8 b 0
  let cd ← memRead8 b 1
  let ck ← memRead16 b 2
  let p ← bufSlice b 4 b.length
  return { type := ty, code := cd, checksum := ck, payload := p }

/-- The result of the dispatch: `Variant{Tcp, Udp, Icmp, Unknown(bytes)}` (R33, R155). -/
inductive Variant
  | icmp (r : IcmpRec)
  | tcp (r : TcpRec)
  | udp (r : UdpRec)
  | unknown (b : Bytes)
deriving DecidableEq, Repr

/-- The dispatch on all eight bits of the protocol number, with its default arm (R94, R155). -/
def xptBody (proto : Byte) (b : Bytes) : Body Variant :=
  if proto = 1 then do
    let r ← icmpBody b
    return .icmp r
  else if proto = 6 then do
    let r ← tcpBody b
    return .tcp r
  else if proto = 17 then do
    let r ← udpBody b
    return .udp r
  else return .unknown b

/-- A variant's record and tag written into RES (R33, R155). -/
def Res.withVariant (res : Res) : Variant → Res
  | .icmp r => { res with icmp := some r, xpt := some .icmp }
  | .tcp r => { res with tcp := some r, xpt := some .tcp }
  | .udp r => { res with udp := some r, xpt := some .udp }
  | .unknown b => { res with unk := some b, xpt := some .unknown }

/-- DECXPT (R155). -/
def execDecxpt (s : State) : Host.Outcome State Fault Refusal :=
  runDu s fun u => atLayer .notLayered Res.empty (xptBody u.proto u.buf) fun v => returnOk (Res.empty.withVariant v)

/-- DECTCP (R160). -/
def execDectcp (s : State) : Host.Outcome State Fault Refusal :=
  runDu s fun u => atLayer .notLayered Res.empty (tcpBody u.buf) fun r => returnOk { Res.empty with tcp := some r }

/-- DECUDP (R165). -/
def execDecudp (s : State) : Host.Outcome State Fault Refusal :=
  runDu s fun u => atLayer .notLayered Res.empty (udpBody u.buf) fun r => returnOk { Res.empty with udp := some r }

/-- DECICMP (R170). -/
def execDecicmp (s : State) : Host.Outcome State Fault Refusal :=
  runDu s fun u => atLayer .notLayered Res.empty (icmpBody u.buf) fun r => returnOk { Res.empty with icmp := some r }

end Sys2Proof.Machine
end

