-- ==== Sys2Proof/Machine/Chain.lean ====
section
/-! DEFINITION. The dissector chain (spec/45_dissect_chain.md): DISSECT. -/

namespace Sys2Proof.Machine

open Sys2Proof

/-- RES as DISSECT begins: both valid bits 0, both tags NONE, nothing else holding a value (R195). -/
def Res.chainStart : Res :=
  { Res.empty with ethValid := some false, ip4Valid := some false, xpt := some .notDecoded, txtTag := some .notTried }

/-- The payload layer 4 reads: that of the variant just written, none for UNKNOWN (R200, R201). -/
def Variant.textPayload : Variant → Option Bytes
  | .icmp r => some r.payload
  | .tcp r => some r.payload
  | .udp r => some r.payload
  | .unknown _ => none

/-- Layer 4: the optional text (R195, R200). -/
def textLayer (t : Bool) (v : Variant) (res : Res) : Res :=
  match t, v.textPayload with
  | true, some p => res.withText p
  | _, _ => res

/-- The chain (R195): layers 1 to 4 in order, each on the payload the one before it produced (R196). An error at a
layer leaves the records of the layers before it (R199). -/
def dissectChain (swap t : Bool) (b : Bytes) : Except Fault DuAnswer :=
  atLayer .ethernet Res.chainStart (ethBody swap b) fun eth =>
  atLayer .ethernet Res.chainStart (etherIsIpv4 b) fun v4 =>
  let r1 := { Res.chainStart with eth := some eth, ethValid := some true }
  if v4 then
    atLayer .ipv4 r1 (ip4Body eth.payload) fun ip =>
    let r2 := { r1 with ip4 := some ip, ip4Valid := some true }
    atLayer .transport r2 (xptBody ip.protocol ip.payload) fun v =>
    returnOk (textLayer t v (r2.withVariant v))
  else returnOk r1

/-- DISSECT (R195). -/
def execDissect (t : Bool) (s : State) : Host.Outcome State Fault Refusal :=
  runDu s fun u => dissectChain s.cfg.etypeSwap t u.buf

end Sys2Proof.Machine
end

