-- ==== Sys2Proof/Machine/Dispatch.lean ====
section
/-! DEFINITION. One arm for each operation of R80. -/

namespace Sys2Proof.Machine
open Sys2Proof

-- The DU's operations, then the CWU's (R80).
def exec (i : Instr) (s : State) : Host.Outcome State Fault Refusal :=
  match i with
  | .fmtaddr => Sys2Proof.Machine.execFmtaddr s
  | .deceth => Sys2Proof.Machine.execDeceth s
  | .decip4 => Sys2Proof.Machine.execDecip4 s
  | .decxpt => Sys2Proof.Machine.execDecxpt s
  | .dectcp => Sys2Proof.Machine.execDectcp s
  | .decudp => Sys2Proof.Machine.execDecudp s
  | .decicmp => Sys2Proof.Machine.execDecicmp s
  | .decpay => Sys2Proof.Machine.execDecpay s
  | .dissect t => Sys2Proof.Machine.execDissect t s
  | .cwopen => Sys2Proof.Machine.execCwopen s
  | .cwwrite => Sys2Proof.Machine.execCwwrite s
  | .cwclose => Sys2Proof.Machine.execCwclose s

end Sys2Proof.Machine
end

