-- ==== Sys2Proof/Machine/HostPort.lean ====
section
/-! DEFINITION. The host's side of the block: writing operand registers, presenting a sink, reading results and status,
reset, and how the next request reaches a unit (R21, R22, R37, R41). The block fetches no instruction from memory (R21,
R63); the nearest thing is the host's next event. -/

namespace Sys2Proof.Machine

open Sys2Proof

/-! ### Reads -/

/-- A 1-bit field as a number. -/
def bitVal (b : Bool) : HostVal := .num b.toNat

/-- A field of RES as the host reads it; none where it holds no value (R37). -/
def Res.get (r : Res) : ResField → Option HostVal
  | .fmt => r.fmt.map .bytes
  | .ethDestAddress => r.eth.map fun e => .bytes e.destAddress
  | .ethSrcAddress => r.eth.map fun e => .bytes e.srcAddress
  | .ethEthertype => r.eth.map fun e => .num e.ethertype.toNat
  | .ethPayload => r.eth.map fun e => .bytes e.payload
  | .ethDestStr => r.eth.map fun e => .bytes e.destStr
  | .ethSrcStr => r.eth.map fun e => .bytes e.srcStr
  | .ip4Version => r.ip4.map fun i => .num i.version.toNat
  | .ip4HeaderLength => r.ip4.map fun i => .num i.headerLength.toNat
  | .ip4Ttl => r.ip4.map fun i => .num i.ttl.toNat
  | .ip4Protocol => r.ip4.map fun i => .num i.protocol.toNat
  | .ip4SrcRaw => r.ip4.map fun i => .bytes i.srcRaw
  | .ip4DstRaw => r.ip4.map fun i => .bytes i.dstRaw
  | .ip4SrcAddr => r.ip4.map fun i => .bytes i.srcAddr
  | .ip4DstAddr => r.ip4.map fun i => .bytes i.dstAddr
  | .ip4Payload => r.ip4.map fun i => .bytes i.payload
  | .tcpSrcPort => r.tcp.map fun t => .num t.srcPort.toNat
  | .tcpDstPort => r.tcp.map fun t => .num t.dstPort.toNat
  | .tcpSequence => r.tcp.map fun t => .num t.sequence.toNat
  | .tcpAcknowledgment => r.tcp.map fun t => .num t.acknowledgment.toNat
  | .tcpFlagUrg => r.tcp.map fun t => bitVal t.flagUrg
  | .tcpFlagAck => r.tcp.map fun t => bitVal t.flagAck
  | .tcpFlagPsh => r.tcp.map fun t => bitVal t.flagPsh
  | .tcpFlagRst => r.tcp.map fun t => bitVal t.flagRst
  | .tcpFlagSyn => r.tcp.map fun t => bitVal t.flagSyn
  | .tcpFlagFin => r.tcp.map fun t => bitVal t.flagFin
  | .tcpPayload => r.tcp.map fun t => .bytes t.payload
  | .udpSrcPort => r.udp.map fun u => .num u.srcPort.toNat
  | .udpDstPort => r.udp.map fun u => .num u.dstPort.toNat
  | .udpSize => r.udp.map fun u => .num u.size.toNat
  | .udpPayload => r.udp.map fun u => .bytes u.payload
  | .icmpType => r.icmp.map fun i => .num i.type.toNat
  | .icmpCode => r.icmp.map fun i => .num i.code.toNat
  | .icmpChecksum => r.icmp.map fun i => .num i.checksum.toNat
  | .icmpPayload => r.icmp.map fun i => .bytes i.payload
  | .unkPayload => r.unk.map .bytes
  | .xpt => r.xpt.map fun x => .num x.code.toNat
  | .txtTag => r.txtTag.map fun x => .num x.code.toNat
  | .txtBytes => r.txtBytes.map .bytes
  | .txtChars => r.txtChars.map .chars
  | .ethValid => r.ethValid.map bitVal
  | .ip4Valid => r.ip4Valid.map bitVal

/-- A host read delivers a value and changes nothing else: "No read of any register or buffer has a side effect" (R60). -/
def State.deliver (s : State) (v : HostVal) : State := { s with hostRead := some v }

/-- An operand register read by the host: refused before the host has written it (R41; X8, whose treatment in
93_implementation_defined.md section 2 is `refuse`). An operation's own read of the register never stops for it. -/
def readWritten (s : State) (r : OperandReg) (written : Bool) (v : HostVal) : Host.Outcome State Fault Refusal :=
  if written then .next (s.deliver v) else .refused (.operandNotWritten r)

/-- An operand register of a DU, read by the host (R22). -/
def readDuOperand (s : State) (u : Du) : OperandReg → Host.Outcome State Fault Refusal
  | .cmd => readWritten s .cmd u.written.cmd (.num u.cmd.toNat)
  | .buf => readWritten s .buf u.written.buf (.bytes u.buf)
  | .buflen => readWritten s .buflen u.written.buf (.num u.buf.length)
  | .proto => readWritten s .proto u.written.proto (.num u.proto.toNat)
  | .ltype => .refused .noSuchRegister

/-- An operand register of the CWU, read by the host (R22). -/
def readCwuOperand (s : State) : OperandReg → Host.Outcome State Fault Refusal
  | .cmd => readWritten s .cmd s.cwu.written.cmd (.num s.cwu.cmd.toNat)
  | .buf => readWritten s .buf s.cwu.written.buf (.bytes s.cwu.buf)
  | .buflen => readWritten s .buflen s.cwu.written.buf (.num s.cwu.buf.length)
  | .proto => .refused .noSuchRegister
  | .ltype => readWritten s .ltype s.cwu.written.ltype (.num s.cwu.ltype.toNat)

/-- Go on with DU `k`, which the block must have (R262; log entry 15). -/
def withDu (s : State) (k : Nat) (f : Du → Host.Outcome State Fault Refusal) : Host.Outcome State Fault Refusal :=
  match s.dus[k]? with
  | none => .refused (.noSuchUnit k)
  | some u => f u

/-! ### One access -/

/-- A host write of BUF: at most `MAX_FRAME_LEN` bytes, for a longer BUFLEN "cannot be expressed" (R22, X6). -/
def loadBuf (s : State) (p : Port) (b : Bytes) : Host.Outcome State Fault Refusal :=
  if s.cfg.fits b then
    match p with
    | .du k => withDu s k fun u => .next (s.setDu k { u with buf := b, written := { u.written with buf := true } })
    | .cwu => .next { s with cwu := { s.cwu with buf := b, written := { s.cwu.written with buf := true } } }
  else .refused .frameTooLong

/-- What an access of the host does. -/
def hostAccess (a : Access) (s : State) : Host.Outcome State Fault Refusal :=
  match a with
  | .loadBuf p b => loadBuf s p b
  | .loadProto k v =>
    withDu s k fun u => .next (s.setDu k { u with proto := v, written := { u.written with proto := true } })
  | .loadLtype v => .next { s with cwu := { s.cwu with ltype := v, written := { s.cwu.written with ltype := true } } }
  | .offerSink content => .next { s with offered := content }
  | .readSt (.du k) => withDu s k fun u => .next (s.deliver (.num u.st.toNat))
  | .readSt .cwu => .next (s.deliver (.num s.cwu.st.toNat))
  | .readCws => .next (s.deliver (.num s.cwu.cws.code.toNat))
  | .readRes k f =>
    withDu s k fun u =>
      match u.res.get f with
      | none => .refused (.resHoldsNoValue f)
      | some v => .next (s.deliver v)
  | .readOperand (.du k) r => withDu s k fun u => readDuOperand s u r
  | .readOperand .cwu r => readCwuOperand s r
  | .reset => .next s.resetBlock

/-! ### The next request -/

/-- A command byte written to the CMD register at a port, and the request then being at that port (R22). -/
def State.present (s : State) (p : Port) (c : Byte) : State :=
  match p with
  | .cwu => { s with cwu := { s.cwu with cmd := c, written := { s.cwu.written with cmd := true } } }
  | .du k =>
    match s.dus[k]? with
    | none => { s with sel := k }
    | some u => { s.setDu k { u with cmd := c, written := { u.written with cmd := true } } with sel := k }

/-- What the host's next event comes to. -/
inductive Fetched
  /-- An operation to run, and the state it runs in. -/
  | run (i : Instr) (s : State)
  /-- The event is over. -/
  | over (o : Host.Outcome State Fault Refusal)

/-- Take the host's next event (R21). A command byte is written to CMD and decoded at its port; a reserved one is
refused (R82). With no event the block stays as it is (log entry 2). -/
def fetch (s : State) : Fetched :=
  match s.inbox with
  | [] => .over (.next s)
  | .access a :: rest => .over (hostAccess a { s with inbox := rest })
  | .issue p c :: rest =>
    match decodeAt p c with
    | .ok i => .run i ({ s with inbox := rest }.present p c)
    | .error .reserved => .over (.refused (.reservedCommand c))
    | .error .wrongPort => .over (.refused (.wrongPort c))

end Sys2Proof.Machine
end

