-- ==== Sys2Proof/Machine/Step.lean ====
section
/-! DEFINITION. One step: the host's next event, and the operation it requests if it requests one. -/

namespace Sys2Proof.Machine

open Sys2Proof

/-- One step of the machine: one atomic transaction (R11, R21). -/
def step (s : State) : Host.Outcome State Fault Refusal :=
  match fetch s with
  | .run i t => exec i t
  | .over o => o

/-- `s` with the command byte whose bits are `w` as the host's next event, at the port that has a meaning for it (log
entry 1). What is not one whole byte is presented as its low byte at DU 0. -/
def State.withFetchWord (s : State) (nbits w : Nat) : State :=
  let c := (tableByte nbits w).getD (BitVec.ofNat 8 w)
  { s with inbox := .issue (homePort c) c :: s.inbox }

end Sys2Proof.Machine
end

