-- ==== Sys2Proof/Safety.lean ====
section
/-! DEFINITION. The terms in which claims about the block are put: the invariants of its registers and of the capture
file, a reader of capture files, the forms of text and numerals the spec names, which error an operation raises, and
the manual chain DISSECT is compared with. Nothing here is part of the machine. -/

namespace Sys2Proof.Machine

open Sys2Proof

/-! ### Registers -/

/-- A DU's ST holds only what R23 lets it: `err` 0, 1 or 2, `elayer` at most 3 and non-zero only with TruncatedFrame,
bits 7:6 zero. -/
def duStLegal (st : Byte) : Bool :=
  decide ((stErr st).toNat ≤ 2) && decide ((stElayer st).toNat ≤ 3) && (stReserved st == 0) &&
    (stElayer st == 0 || stErr st == 1)

/-- The CWU's ST holds only what R23 lets it: `err` 0, 3 or 4, `elayer` zero, bits 7:6 zero. -/
def cwuStLegal (st : Byte) : Bool :=
  (stErr st == 0 || stErr st == 3 || stErr st == 4) && (stElayer st == 0) && (stReserved st == 0)

/-- The widths of `RES.eth`, and its strings as FMT of its addresses (R28). -/
def EthRec.wf (r : EthRec) : Bool :=
  decide (r.destAddress.length = 6) && decide (r.srcAddress.length = 6) &&
    decide (r.destStr.length = 17) && decide (r.srcStr.length = 17) &&
    decide (r.destStr = fmtAddr r.destAddress) && decide (r.srcStr = fmtAddr r.srcAddress)

/-- The widths of `RES.ip4`, its strings as DOTTED of its addresses, its header length a multiple of 4 (R29, R146). -/
def Ip4Rec.wf (r : Ip4Rec) : Bool :=
  decide (r.srcRaw.length = 4) && decide (r.dstRaw.length = 4) &&
    decide (7 ≤ r.srcAddr.length) && decide (r.srcAddr.length ≤ 15) &&
    decide (7 ≤ r.dstAddr.length) && decide (r.dstAddr.length ≤ 15) &&
    decide (r.srcAddr = dotted r.srcRaw) && decide (r.dstAddr = dotted r.dstRaw) &&
    decide (r.headerLength.toNat % 4 = 0)

/-- The fields of RES agree with one another: records are of their widths (R28, R29, R35); the tag UNKNOWN goes with the
opaque payload (R33) and the other tags with their records; the text fields go with the text tag (R34); a valid bit of 1
goes with its record (R36). -/
def Res.wf (r : Res) : Bool :=
  r.fmt.all (fun f => f.length == 17) && r.eth.all EthRec.wf && r.ip4.all Ip4Rec.wf &&
    (r.unk.isSome == (r.xpt == some .unknown)) &&
    (r.xpt != some .icmp || r.icmp.isSome) && (r.xpt != some .tcp || r.tcp.isSome) &&
    (r.xpt != some .udp || r.udp.isSome) &&
    (r.txtBytes.isSome == (r.txtTag == some .text || r.txtTag == some .binary)) &&
    (r.txtChars.isSome == (r.txtTag == some .text)) &&
    (r.ethValid != some true || r.eth.isSome) && (r.ip4Valid != some true || r.ip4.isSome)

/-- A DU's registers are within what the spec gives them (R22, R23, R28 to R36). -/
def Du.wf (c : Params) (u : Du) : Bool := c.fits u.buf && duStLegal u.st && u.res.wf

/-- The CWU's registers are within what the spec gives them (R22, R23). -/
def Cwu.wf (c : Params) (w : Cwu) : Bool := c.fits w.buf && cwuStLegal w.st

/-- Every register of the block is within what the spec gives it, the parameters among them, and there is at least one
DU (R6). -/
def State.wf (s : State) : Bool :=
  s.cfg.wf && !s.dus.isEmpty && s.dus.all (Du.wf s.cfg) && s.cwu.wf s.cfg

/-- A DU request can run: the unit it is at exists and is `u`, and its operand fits the block (R22, R262). -/
def AtDu (s : State) (u : Du) : Prop := s.dus[s.sel]? = some u ∧ u.buf.length ≤ s.cfg.maxFrameLen

/-- The outcome of a DU operation that leaves this ST and this RES in its unit `u` and changes nothing else. -/
def duLeaves (s : State) (u : Du) (st : Byte) (res : Res) : Host.Outcome State Fault Refusal :=
  .next (s.setDu s.sel { u with st := st, res := res })

/-! ### The capture file -/

/-- One frame as it was written: the time drawn and the bytes. -/
structure FrameWrite where
  time : TimeDraw
  frame : Bytes
deriving DecidableEq, Repr

/-- A whole record: header, then frame bytes (R90). -/
def recordBytes (big : Bool) (r : FrameWrite) : Bytes := recordHeader big r.time r.frame.length ++ r.frame

/-- A whole capture file: the global header, then the records in write order (R57). -/
def captureFile (big : Bool) (ltype : BitVec 32) (rs : List FrameWrite) : Bytes :=
  globalHeader big ltype ++ (rs.map (recordBytes big)).flatten

/-- What SINK holds (R25, R57, R221, U3): while OPEN, a whole capture file; while OPEN_FAILED, a whole capture file and
then a record cut short. -/
def FileWf (s : State) : Prop :=
  match s.cwu.cws with
  | .closed => True
  | .opened =>
    ∃ ltype rs, (∀ r ∈ rs, r.frame.length ≤ s.cfg.maxFrameLen) ∧ s.sink = captureFile s.cfg.capBigEndian ltype rs
  | .openFailed =>
    ∃ ltype rs r p, (∀ x ∈ r :: rs, x.frame.length ≤ s.cfg.maxFrameLen) ∧
      p <+: recordBytes s.cfg.capBigEndian r ∧ p.length < (recordBytes s.cfg.capBigEndian r).length ∧
      s.sink = captureFile s.cfg.capBigEndian ltype rs ++ p

/-- R273's premise: every sink the host presents, now or later, is empty. -/
def EmptySinks (s : State) : Prop :=
  s.offered = [] ∧ ∀ c, HostEvent.access (.offerSink c) ∈ s.inbox → c = []

/-- The named assumption of R258 on every draw: those supplied, and the free values beyond them. -/
def TimeSourceWellFormed (s : State) : Prop :=
  (∀ d ∈ s.env.times, d.wf = true) ∧ ∀ k, (Config.freeTime k).wf = true

/-- A 32-bit number read back from a capture file in its byte order (R53). -/
def readU32 (big : Bool) (b : Bytes) : Nat := if big then beValue b else beValue b.reverse

/-- One record as a reader of the file sees it (R90). -/
structure ReadRecord where
  tsSec : Nat
  tsUsec : Nat
  inclLen : Nat
  origLen : Nat
  frame : Bytes
deriving DecidableEq, Repr

/-- A capture file as a reader sees it (R89). -/
structure ReadFile where
  magic : Nat
  versionMajor : Nat
  versionMinor : Nat
  thiszone : Nat
  sigfigs : Nat
  snaplen : Nat
  linktype : Nat
  records : List ReadRecord
deriving DecidableEq, Repr

/-- Read records to the end of the file; "a reader tells where the next record starts from `incl_len`" (R96). `fuel`
bounds their number. -/
def readRecords (big : Bool) : Nat → Bytes → Option (List ReadRecord)
  | _, [] => some []
  | 0, _ :: _ => none
  | fuel + 1, b =>
    if b.length < 16 then none
    else
      let n := readU32 big ((b.drop 8).take 4)
      if (b.drop 16).length < n then none
      else
        (readRecords big fuel (b.drop (16 + n))).map fun rs =>
          { tsSec := readU32 big (b.take 4)
            tsUsec := readU32 big ((b.drop 4).take 4)
            inclLen := n
            origLen := readU32 big ((b.drop 12).take 4)
            frame := (b.drop 16).take n } :: rs

/-- Read a whole capture file (R89, R90); none where it ends in a record cut short. -/
def readFile (big : Bool) (b : Bytes) : Option ReadFile :=
  if b.length < 24 then none
  else
    (readRecords big b.length (b.drop 24)).map fun rs =>
      { magic := readU32 big (b.take 4)
        versionMajor := readU32 big ((b.drop 4).take 2)
        versionMinor := readU32 big ((b.drop 6).take 2)
        thiszone := readU32 big ((b.drop 8).take 4)
        sigfigs := readU32 big ((b.drop 12).take 4)
        snaplen := readU32 big ((b.drop 16).take 4)
        linktype := readU32 big ((b.drop 20).take 4)
        records := rs }

/-- CWWRITE of one frame after another: the host loads BUF, then the CWU writes (R224). -/
def writeFrames : List Bytes → State → Option State
  | [], s => some s
  | f :: fs, s =>
    match exec .cwwrite { s with cwu := { s.cwu with buf := f } } with
    | .next t => writeFrames fs t
    | _ => none

/-! ### Text and numerals -/

/-- A byte pattern of R186 with the scalar value R187 gives it, written out row by row. -/
inductive Utf8Pattern : Bytes → Nat → Prop
  | one (a : Nat) (h : a ≤ 0x7F) : Utf8Pattern [BitVec.ofNat 8 a] a
  | two (a b : Nat) (ha : 0xC2 ≤ a ∧ a ≤ 0xDF) (hb : 0x80 ≤ b ∧ b ≤ 0xBF) :
      Utf8Pattern [BitVec.ofNat 8 a, BitVec.ofNat 8 b] ((a - 0xC0) * 64 + (b - 0x80))
  | three (a b c : Nat)
      (hab : (a = 0xE0 ∧ 0xA0 ≤ b ∧ b ≤ 0xBF) ∨ (0xE1 ≤ a ∧ a ≤ 0xEC ∧ 0x80 ≤ b ∧ b ≤ 0xBF) ∨
        (a = 0xED ∧ 0x80 ≤ b ∧ b ≤ 0x9F) ∨ (0xEE ≤ a ∧ a ≤ 0xEF ∧ 0x80 ≤ b ∧ b ≤ 0xBF))
      (hc : 0x80 ≤ c ∧ c ≤ 0xBF) :
      Utf8Pattern [BitVec.ofNat 8 a, BitVec.ofNat 8 b, BitVec.ofNat 8 c]
        ((a - 0xE0) * 4096 + (b - 0x80) * 64 + (c - 0x80))
  | four (a b c d : Nat)
      (hab : (a = 0xF0 ∧ 0x90 ≤ b ∧ b ≤ 0xBF) ∨ (0xF1 ≤ a ∧ a ≤ 0xF3 ∧ 0x80 ≤ b ∧ b ≤ 0xBF) ∨
        (a = 0xF4 ∧ 0x80 ≤ b ∧ b ≤ 0x8F))
      (hc : 0x80 ≤ c ∧ c ≤ 0xBF) (hd : 0x80 ≤ d ∧ d ≤ 0xBF) :
      Utf8Pattern [BitVec.ofNat 8 a, BitVec.ofNat 8 b, BitVec.ofNat 8 c, BitVec.ofNat 8 d]
        ((a - 0xF0) * 262144 + (b - 0x80) * 4096 + (c - 0x80) * 64 + (d - 0x80))

/-- A byte sequence that is a concatenation of patterns, with the scalar values of its patterns in order (R186, R187). -/
inductive Utf8Text : Bytes → List Nat → Prop
  | nil : Utf8Text [] []
  | cons (p : Bytes) (c : Nat) (b : Bytes) (cs : List Nat) (hp : Utf8Pattern p c) (hb : Utf8Text b cs) :
      Utf8Text (p ++ b) (c :: cs)

/-- The ASCII codes of `'0'..'9'` and `'A'..'F'` (R97). -/
def hexCodes : List Byte :=
  [0x30, 0x31, 0x32, 0x33, 0x34, 0x35, 0x36, 0x37, 0x38, 0x39, 0x41, 0x42, 0x43, 0x44, 0x45, 0x46]

/-- The two upper-case hex digits of a byte, by its value. -/
def hexPair (v : Byte) : Bytes := [hexCodes.getD (v.toNat / 16) 0, hexCodes.getD (v.toNat % 16) 0]

/-- The decimal numeral of a number, one ASCII code for each digit, with no leading zeros. -/
def numeral (n : Nat) : Bytes := (Nat.toDigits 10 n).map fun c => BitVec.ofNat 8 c.toNat

/-! ### Records by offset (R84 to R88) -/

/-- The Ethernet record of a frame (R130), by offset. -/
def ethRecOf (swap : Bool) (b : Bytes) : EthRec :=
  { destAddress := b.take 6
    srcAddress := (b.drop 6).take 6
    ethertype := if swap then b.getD 13 0 ++ b.getD 12 0 else b.getD 12 0 ++ b.getD 13 0
    payload := b.drop 14
    destStr := fmtAddr (b.take 6)
    srcStr := fmtAddr ((b.drop 6).take 6) }

/-- The header length the first byte of an IPv4 buffer declares, in bytes (R91). -/
def ihlBytes (b : Bytes) : Nat := (b.getD 0 0).toNat % 16 * 4

/-- The IPv4 record of a buffer (R140), by offset. -/
def ip4RecOf (b : Bytes) : Ip4Rec :=
  { version := highNibble (b.getD 0 0)
    headerLength := BitVec.ofNat 6 (ihlBytes b)
    ttl := b.getD 8 0
    protocol := b.getD 9 0
    srcRaw := (b.drop 12).take 4
    dstRaw := (b.drop 16).take 4
    srcAddr := dotted ((b.drop 12).take 4)
    dstAddr := dotted ((b.drop 16).take 4)
    payload := b.drop (ihlBytes b) }

/-- The TCP record of a buffer (R160), by offset; each flag from its own bit of byte 13 (R163). -/
def tcpRecOf (b : Bytes) : TcpRec :=
  { srcPort := b.getD 0 0 ++ b.getD 1 0
    dstPort := b.getD 2 0 ++ b.getD 3 0
    sequence := b.getD 4 0 ++ b.getD 5 0 ++ b.getD 6 0 ++ b.getD 7 0
    acknowledgment := b.getD 8 0 ++ b.getD 9 0 ++ b.getD 10 0 ++ b.getD 11 0
    flagUrg := (b.getD 13 0).getLsbD 5
    flagAck := (b.getD 13 0).getLsbD 4
    flagPsh := (b.getD 13 0).getLsbD 3
    flagRst := (b.getD 13 0).getLsbD 2
    flagSyn := (b.getD 13 0).getLsbD 1
    flagFin := (b.getD 13 0).getLsbD 0
    payload := b.drop (min ((b.getD 12 0).toNat / 16 * 4) b.length) }

/-- The UDP record of a buffer (R165), by offset. -/
def udpRecOf (b : Bytes) : UdpRec :=
  { srcPort := b.getD 0 0 ++ b.getD 1 0
    dstPort := b.getD 2 0 ++ b.getD 3 0
    size := b.getD 6 0 ++ b.getD 7 0
    payload := b.drop 8 }

/-- The ICMP record of a buffer (R170), by offset. -/
def icmpRecOf (b : Bytes) : IcmpRec :=
  { type := b.getD 0 0, code := b.getD 1 0, checksum := b.getD 2 0 ++ b.getD 3 0, payload := b.drop 4 }

/-- The variant the dispatch makes of a buffer long enough for it (R155). -/
def variantOf (proto : Byte) (b : Bytes) : Variant :=
  if proto = 1 then .icmp (icmpRecOf b)
  else if proto = 6 then .tcp (tcpRecOf b)
  else if proto = 17 then .udp (udpRecOf b)
  else .unknown b

/-! ### Errors, written fields, the manual chain -/

/-- Whether a buffer is too short for the transport header of a protocol number (R155, R241). -/
def transportTooShort (proto : Byte) (n : Nat) : Bool :=
  (proto == 1 && decide (n < 4)) || (proto == 6 && decide (n < 14)) || (proto == 17 && decide (n < 8))

/-- Whether a buffer is too short for its IPv4 header (R140, R241). -/
def ipv4TooShort (b : Bytes) : Bool :=
  decide (b.length < 20) || decide (b.length < (b.getD 0 0).toNat % 16 * 4)

/-- ST as R241's table and R195 give it for DISSECT: the first of layers 1, 2, 3 whose condition holds. -/
def dissectSt (b : Bytes) : Byte :=
  if b.length < 14 then 0x09
  else if b.getD 12 0 = 0x08 ∧ b.getD 13 0 = 0x00 then
    let p1 := b.drop 14
    if ipv4TooShort p1 then 0x11
    else
      let p2 := p1.drop ((p1.getD 0 0).toNat % 16 * 4)
      if transportTooShort (p1.getD 9 0) p2.length then 0x19 else 0x00
  else 0x00

/-- ST as R241's table gives it for each DU operation, from PROTO and BUF. -/
def expectedSt (i : Instr) (proto : Byte) (b : Bytes) : Byte :=
  match i with
  | .fmtaddr => if b.length ≠ 6 then 0x02 else 0x00
  | .deceth => if b.length < 14 then 0x01 else 0x00
  | .decip4 => if ipv4TooShort b then 0x01 else 0x00
  | .decxpt => if transportTooShort proto b.length then 0x01 else 0x00
  | .dectcp => if b.length < 14 then 0x01 else 0x00
  | .decudp => if b.length < 8 then 0x01 else 0x00
  | .decicmp => if b.length < 4 then 0x01 else 0x00
  | .decpay => 0x00
  | .dissect _ => dissectSt b
  | .cwopen => 0x00
  | .cwwrite => 0x00
  | .cwclose => 0x00

/-- The parts of RES by name (R28 to R36). -/
inductive ResPart
  | fmt | eth | ip4 | tcp | udp | icmp | unk | xpt | txt | valid
deriving DecidableEq, Repr

/-- The part a field belongs to. -/
def ResField.part : ResField → ResPart
  | .fmt => .fmt
  | .ethDestAddress | .ethSrcAddress | .ethEthertype | .ethPayload | .ethDestStr | .ethSrcStr => .eth
  | .ip4Version | .ip4HeaderLength | .ip4Ttl | .ip4Protocol | .ip4SrcRaw | .ip4DstRaw | .ip4SrcAddr | .ip4DstAddr
  | .ip4Payload => .ip4
  | .tcpSrcPort | .tcpDstPort | .tcpSequence | .tcpAcknowledgment | .tcpFlagUrg | .tcpFlagAck | .tcpFlagPsh
  | .tcpFlagRst | .tcpFlagSyn | .tcpFlagFin | .tcpPayload => .tcp
  | .udpSrcPort | .udpDstPort | .udpSize | .udpPayload => .udp
  | .icmpType | .icmpCode | .icmpChecksum | .icmpPayload => .icmp
  | .unkPayload => .unk
  | .xpt => .xpt
  | .txtTag | .txtBytes | .txtChars => .txt
  | .ethValid | .ip4Valid => .valid

/-- The parts of RES an operation may write (the "results written" column of R80). -/
def instrWrites : Instr → List ResPart
  | .fmtaddr => [.fmt]
  | .deceth => [.eth]
  | .decip4 => [.ip4]
  | .decxpt => [.xpt, .tcp, .udp, .icmp, .unk]
  | .dectcp => [.tcp]
  | .decudp => [.udp]
  | .decicmp => [.icmp]
  | .decpay => [.txt]
  | .dissect _ => [.valid, .eth, .ip4, .xpt, .tcp, .udp, .icmp, .unk, .txt]
  | .cwopen => []
  | .cwwrite => []
  | .cwclose => []

/-- One operation issued by hand: BUF and PROTO of the selected DU loaded, the operation run, ST and RES read back. -/
def byHand (i : Instr) (b : Bytes) (proto : Byte) (s : State) : Option (Byte × Res) :=
  match s.dus[s.sel]? with
  | none => none
  | some u =>
    match exec i (s.setDu s.sel { u with buf := b, proto := proto }) with
    | .next t => (t.dus[s.sel]?).map fun v => (v.st, v.res)
    | _ => none

/-- The error byte an operation issued by hand left, with its place in the sequence as `elayer` (R202). -/
def atPosition (st : Byte) (k : Nat) : Byte := st ||| BitVec.ofNat 8 (k * 8)

/-- The payload of the transport record an operation wrote, none for UNKNOWN. -/
def Res.transportPayload (r : Res) : Option Bytes :=
  (r.icmp.map (·.payload)).or ((r.tcp.map (·.payload)).or (r.udp.map (·.payload)))

/-- R202's manual chain, the host issuing DECETH, DECIP4, DECXPT, DECPAY one by one, each on the payload the one before
returned, stopping at the first error: the ST and the RES fields it obtains, put together. -/
def manualChain (t : Bool) (frame : Bytes) (s : State) : Option (Byte × Res) := do
  let (st1, e) ← byHand .deceth frame 0 s
  if st1 ≠ 0 then return (atPosition st1 1, Res.chainStart)
  let r1 := { Res.chainStart with eth := e.eth, ethValid := some true }
  if frame[12]? ≠ some 0x08 ∨ frame[13]? ≠ some 0x00 then return (0x00, r1)
  let eth ← e.eth
  let (st2, i) ← byHand .decip4 eth.payload 0 s
  if st2 ≠ 0 then return (atPosition st2 2, r1)
  let r2 := { r1 with ip4 := i.ip4, ip4Valid := some true }
  let ip ← i.ip4
  let (st3, x) ← byHand .decxpt ip.payload ip.protocol s
  if st3 ≠ 0 then return (atPosition st3 3, r2)
  let r3 := { r2 with tcp := x.tcp, udp := x.udp, icmp := x.icmp, unk := x.unk, xpt := x.xpt }
  match t, x.transportPayload with
  | true, some p => do
    let (_, y) ← byHand .decpay p 0 s
    return (0x00, { r3 with txtTag := y.txtTag, txtBytes := y.txtBytes, txtChars := y.txtChars })
  | _, _ => return (0x00, r3)

/-- RES without its text fields. -/
def Res.withoutText (r : Res) : Res := { r with txtTag := none, txtBytes := none, txtChars := none }

/-- A DU without its text fields. -/
def Du.withoutText (u : Du) : Du := { u with res := u.res.withoutText }

/-- RES without the number reported as ethertype. -/
def Res.withoutEthertype (r : Res) : Res := { r with eth := r.eth.map fun e => { e with ethertype := 0 } }

end Sys2Proof.Machine
end

