-- ==== Sys2Proof/Certificates/Slice0/Obligations.lean ====
section
/-! DEFINITION. The statements for the provers, from the numbered rules of spec/. `AtDu s u` says that the DU the
request is at is `u` and that its operand fits; `duLeaves s u st res` is the outcome that leaves `st` and `res` in that
unit and everything else as it was. -/

open Sys2Proof Sys2Proof.Machine

/-! ### Commands -/

/-- R21, R22, R83: a command byte issued at a port is written to that unit's CMD and decoded there, and the operation it
decodes to runs in the state with nothing else changed but the request taken and, for a DU, the port noted. The model's
own in it: the list of requests is log entry 1, the port noted in `sel` entry 13, the written bit entry 14, and the third
clause, that a request at a DU the block does not have is refused as `noSuchUnit`, entry 15. -/
def Obligations.StepRunsTheDecodedOperation : Prop :=
  ∀ (s : State) (c : Byte) (rest : List HostEvent) (i : Instr),
    (s.inbox = .issue .cwu c :: rest → decodeAt .cwu c = .ok i →
      step s = exec i { s with
        inbox := rest
        cwu := { s.cwu with cmd := c, written := { s.cwu.written with cmd := true } } }) ∧
    (∀ k u, s.inbox = .issue (.du k) c :: rest → decodeAt (.du k) c = .ok i → s.dus[k]? = some u →
      step s = exec i { s with
        inbox := rest
        sel := k
        dus := s.dus.set k { u with cmd := c, written := { u.written with cmd := true } } }) ∧
    (∀ k, s.inbox = .issue (.du k) c :: rest → decodeAt (.du k) c = .ok i → s.dus[k]? = none →
      step s = .refused (.noSuchUnit k))

/-- R81, R82: at a port, exactly the bytes that encode the unit's operations decode, each to its operation. -/
def Obligations.DecodeAndEncodeAgree : Prop :=
  ∀ (p : Port) (c : Byte) (i : Instr), decodeAt p c = .ok i ↔ i.wf p = true ∧ c = encode i

/-- R81: the thirteen valid command bytes, what each means, and that there are no others. -/
def Obligations.CommandBytesMeanTheirRows : Prop :=
  decode 0x01 = some .fmtaddr ∧ decode 0x02 = some .deceth ∧ decode 0x03 = some .decip4 ∧
  decode 0x04 = some .decxpt ∧ decode 0x05 = some .dectcp ∧ decode 0x06 = some .decudp ∧
  decode 0x07 = some .decicmp ∧ decode 0x08 = some .decpay ∧ decode 0x09 = some (.dissect false) ∧
  decode 0x19 = some (.dissect true) ∧ decode 0x0A = some .cwopen ∧ decode 0x0B = some .cwwrite ∧
  decode 0x0C = some .cwclose ∧
  ∀ c : Byte, (decode c).isSome = true ↔ (0x01 ≤ c.toNat ∧ c.toNat ≤ 0x0C) ∨ c.toNat = 0x19

/-- R82: a reserved byte is refused at every port; a DU code at the CWU's port and a CWU code at a DU's are refused. -/
def Obligations.ReservedCommandsAreRefused : Prop :=
  ∀ (s : State) (p : Port) (c : Byte) (rest : List HostEvent), s.inbox = .issue p c :: rest →
    ((c.toNat = 0 ∨ (0x0D ≤ c.toNat ∧ c.toNat ≤ 0x18) ∨ 0x1A ≤ c.toNat) → step s = .refused (.reservedCommand c)) ∧
    (((0x01 ≤ c.toNat ∧ c.toNat ≤ 0x09) ∨ c.toNat = 0x19) → p = .cwu → step s = .refused (.wrongPort c)) ∧
    ((0x0A ≤ c.toNat ∧ c.toNat ≤ 0x0C) → (∃ k, p = .du k) → step s = .refused (.wrongPort c))

/-- R22, X6: a request whose BUFLEN is above MAX_FRAME_LEN is refused, by every operation that reads BUF. -/
def Obligations.LongRequestsAreRefused : Prop :=
  ∀ (i : Instr) (s : State),
    (i.unit = .du → ∀ u, s.dus[s.sel]? = some u → s.cfg.maxFrameLen < u.buf.length →
      exec i s = .refused .frameTooLong) ∧
    (s.cfg.maxFrameLen < s.cwu.buf.length → exec .cwwrite s = .refused .frameTooLong)

/-! ### Status and tag codes -/

/-- R23, R240, R25, R33, R34: where the fields of ST lie, and the codes of errors, layers, CWS and the two tags. -/
def Obligations.StatusAndTagCodes : Prop :=
  (∀ e l, stErr (mkSt e l) = e.code ∧ stElayer (mkSt e l) = l.code ∧ stReserved (mkSt e l) = 0) ∧
  (Err.ok.code = 0 ∧ Err.truncatedFrame.code = 1 ∧ Err.malformedAddress.code = 2 ∧ Err.ioError.code = 3 ∧
    Err.closedWriter.code = 4) ∧
  (Layer.notLayered.code = 0 ∧ Layer.ethernet.code = 1 ∧ Layer.ipv4.code = 2 ∧ Layer.transport.code = 3) ∧
  (Cws.closed.code = 0 ∧ Cws.opened.code = 1 ∧ Cws.openFailed.code = 2) ∧
  (XptTag.notDecoded.code = 0 ∧ XptTag.icmp.code = 1 ∧ XptTag.tcp.code = 2 ∧ XptTag.udp.code = 3 ∧
    XptTag.unknown.code = 4) ∧
  (TxtTag.notTried.code = 0 ∧ TxtTag.text.code = 1 ∧ TxtTag.binary.code = 2)

/-! ### Single-layer operations -/

/-- R120, R121: FMTADDR of six bytes leaves `AA:BB:CC:DD:EE:FF`; of any other number, MalformedAddress and an empty RES. -/
def Obligations.FmtaddrFormatsAddresses : Prop :=
  ∀ (s : State) (u : Du), AtDu s u →
    (∀ a b c d e f : Byte, u.buf = [a, b, c, d, e, f] →
      exec .fmtaddr s = duLeaves s u 0x00 { Res.empty with
        fmt := some (hexPair a ++ [0x3A] ++ hexPair b ++ [0x3A] ++ hexPair c ++ [0x3A] ++ hexPair d ++ [0x3A] ++
          hexPair e ++ [0x3A] ++ hexPair f) }) ∧
    (u.buf.length ≠ 6 → exec .fmtaddr s = duLeaves s u 0x02 Res.empty)

/-- R122: FMT of six bytes is 17 characters of the given pattern, and the bytes can be read back from it. -/
def Obligations.FormattedAddressesAreInjective : Prop :=
  (∀ a : Bytes, a.length = 6 → (fmtAddr a).length = 17 ∧
    ∀ i < 17, (i % 3 = 2 → (fmtAddr a)[i]? = some 0x3A) ∧ (i % 3 ≠ 2 → ∃ c ∈ hexCodes, (fmtAddr a)[i]? = some c)) ∧
  (∀ a b : Bytes, a.length = 6 → b.length = 6 → fmtAddr a = fmtAddr b → a = b)

/-- R130, R133, R135: DECETH of at least 14 bytes leaves the Ethernet record by offset, with the ethertype of the
parameter and the payload to the end of the buffer; of fewer, TruncatedFrame and an empty RES. -/
def Obligations.DecethDecodesTheHeader : Prop :=
  ∀ (s : State) (u : Du), AtDu s u →
    (14 ≤ u.buf.length → exec .deceth s = duLeaves s u 0x00 { Res.empty with
      eth := some {
        destAddress := u.buf.take 6
        srcAddress := (u.buf.drop 6).take 6
        ethertype := if s.cfg.etypeSwap then u.buf.getD 13 0 ++ u.buf.getD 12 0
          else u.buf.getD 12 0 ++ u.buf.getD 13 0
        payload := u.buf.drop 14
        destStr := fmtAddr (u.buf.take 6)
        srcStr := fmtAddr ((u.buf.drop 6).take 6) } }) ∧
    (u.buf.length < 14 → exec .deceth s = duLeaves s u 0x01 Res.empty)

/-- R140, R141, R144: DECIP4 checks `n >= 20`, then `n >=` the header length; then it leaves the record by offset, the
payload from the header length to the end; else TruncatedFrame and an empty RES. -/
def Obligations.Decip4DecodesTheHeader : Prop :=
  ∀ (s : State) (u : Du) (hl : Nat), AtDu s u → hl = (u.buf.getD 0 0).toNat % 16 * 4 →
    (20 ≤ u.buf.length → hl ≤ u.buf.length → exec .decip4 s = duLeaves s u 0x00 { Res.empty with
      ip4 := some {
        version := BitVec.ofNat 4 ((u.buf.getD 0 0).toNat / 16)
        headerLength := BitVec.ofNat 6 hl
        ttl := u.buf.getD 8 0
        protocol := u.buf.getD 9 0
        srcRaw := (u.buf.drop 12).take 4
        dstRaw := (u.buf.drop 16).take 4
        srcAddr := dotted ((u.buf.drop 12).take 4)
        dstAddr := dotted ((u.buf.drop 16).take 4)
        payload := u.buf.drop hl } }) ∧
    (u.buf.length < 20 → exec .decip4 s = duLeaves s u 0x01 Res.empty) ∧
    (20 ≤ u.buf.length → u.buf.length < hl → exec .decip4 s = duLeaves s u 0x01 Res.empty)

/-- R146: after every DECIP4 that succeeds, the header length is IHL times 4, a multiple of 4 in 0..60 (in [20, 60] where
IHL is at least 5), the payload is a suffix of the buffer, and its length is `n` less the header length. -/
def Obligations.Decip4HeaderLengthLaw : Prop :=
  ∀ (s t : State) (u v : Du) (r : Ip4Rec), AtDu s u → exec .decip4 s = .next t → t.dus[s.sel]? = some v →
    v.res.ip4 = some r →
      r.headerLength.toNat = (u.buf.getD 0 0 &&& 0x0F).toNat * 4 ∧ r.headerLength.toNat % 4 = 0 ∧
      r.headerLength.toNat ≤ 60 ∧
      (5 ≤ (u.buf.getD 0 0 &&& 0x0F).toNat → 20 ≤ r.headerLength.toNat) ∧
      r.payload <:+ u.buf ∧ r.payload.length + r.headerLength.toNat = u.buf.length

/-- R143: DOTTED of four bytes is their decimal numerals with no leading zeros, dots between, 7 to 15 bytes long; and it
is injective. -/
def Obligations.DottedDecimalForm : Prop :=
  (∀ a b c d : Byte,
    dotted [a, b, c, d] = numeral a.toNat ++ [0x2E] ++ numeral b.toNat ++ [0x2E] ++ numeral c.toNat ++ [0x2E] ++
      numeral d.toNat ∧
    7 ≤ (dotted [a, b, c, d]).length ∧ (dotted [a, b, c, d]).length ≤ 15) ∧
  (∀ a b : Bytes, a.length = 4 → b.length = 4 → dotted a = dotted b → a = b)

/-- R160, R161, R162, R163: DECTCP of at least 14 bytes leaves the record by offset, each flag from its own bit of byte
13, the payload from the data offset clamped to the buffer; of fewer, TruncatedFrame and an empty RES. -/
def Obligations.DectcpDecodesTheHeader : Prop :=
  ∀ (s : State) (u : Du), AtDu s u →
    (14 ≤ u.buf.length → exec .dectcp s = duLeaves s u 0x00 { Res.empty with
      tcp := some {
        srcPort := u.buf.getD 0 0 ++ u.buf.getD 1 0
        dstPort := u.buf.getD 2 0 ++ u.buf.getD 3 0
        sequence := u.buf.getD 4 0 ++ u.buf.getD 5 0 ++ u.buf.getD 6 0 ++ u.buf.getD 7 0
        acknowledgment := u.buf.getD 8 0 ++ u.buf.getD 9 0 ++ u.buf.getD 10 0 ++ u.buf.getD 11 0
        flagUrg := (u.buf.getD 13 0).getLsbD 5
        flagAck := (u.buf.getD 13 0).getLsbD 4
        flagPsh := (u.buf.getD 13 0).getLsbD 3
        flagRst := (u.buf.getD 13 0).getLsbD 2
        flagSyn := (u.buf.getD 13 0).getLsbD 1
        flagFin := (u.buf.getD 13 0).getLsbD 0
        payload := u.buf.drop (min ((u.buf.getD 12 0).toNat / 16 * 4) u.buf.length) } }) ∧
    (u.buf.length < 14 → exec .dectcp s = duLeaves s u 0x01 Res.empty)

/-- R165, R166, R167: DECUDP of at least 8 bytes leaves ports, `size` from offsets 6 and 7, and the payload from offset
8; of fewer, TruncatedFrame and an empty RES. -/
def Obligations.DecudpDecodesTheHeader : Prop :=
  ∀ (s : State) (u : Du), AtDu s u →
    (8 ≤ u.buf.length → exec .decudp s = duLeaves s u 0x00 { Res.empty with
      udp := some {
        srcPort := u.buf.getD 0 0 ++ u.buf.getD 1 0
        dstPort := u.buf.getD 2 0 ++ u.buf.getD 3 0
        size := u.buf.getD 6 0 ++ u.buf.getD 7 0
        payload := u.buf.drop 8 } }) ∧
    (u.buf.length < 8 → exec .decudp s = duLeaves s u 0x01 Res.empty)

/-- R170: DECICMP of at least 4 bytes leaves type, code, checksum and the payload from offset 4; of fewer,
TruncatedFrame and an empty RES. -/
def Obligations.DecicmpDecodesTheHeader : Prop :=
  ∀ (s : State) (u : Du), AtDu s u →
    (4 ≤ u.buf.length → exec .decicmp s = duLeaves s u 0x00 { Res.empty with
      icmp := some {
        type := u.buf.getD 0 0
        code := u.buf.getD 1 0
        checksum := u.buf.getD 2 0 ++ u.buf.getD 3 0
        payload := u.buf.drop 4 } }) ∧
    (u.buf.length < 4 → exec .decicmp s = duLeaves s u 0x01 Res.empty)

/-- R94, R155: DECXPT dispatches on all eight bits of PROTO: 1, 6 and 17 to their decoders with their tags, every other
number to UNKNOWN with the whole buffer and no length test; a short buffer for 1, 6 or 17 is TruncatedFrame. -/
def Obligations.DecxptDispatchesOnProto : Prop :=
  ∀ (s : State) (u : Du), AtDu s u →
    (u.proto = 1 → 4 ≤ u.buf.length → exec .decxpt s =
      duLeaves s u 0x00 { Res.empty with icmp := some (icmpRecOf u.buf), xpt := some .icmp }) ∧
    (u.proto = 6 → 14 ≤ u.buf.length → exec .decxpt s =
      duLeaves s u 0x00 { Res.empty with tcp := some (tcpRecOf u.buf), xpt := some .tcp }) ∧
    (u.proto = 17 → 8 ≤ u.buf.length → exec .decxpt s =
      duLeaves s u 0x00 { Res.empty with udp := some (udpRecOf u.buf), xpt := some .udp }) ∧
    (u.proto ≠ 1 → u.proto ≠ 6 → u.proto ≠ 17 → exec .decxpt s =
      duLeaves s u 0x00 { Res.empty with unk := some u.buf, xpt := some .unknown }) ∧
    ((u.proto = 1 ∧ u.buf.length < 4) ∨ (u.proto = 6 ∧ u.buf.length < 14) ∨ (u.proto = 17 ∧ u.buf.length < 8) →
      exec .decxpt s = duLeaves s u 0x01 Res.empty)

/-- R156: for PROTO 1, 6 and 17 DECXPT leaves field for field what the variant's own operation leaves, and fails when it
fails; the tag is all it adds. -/
def Obligations.DecxptEqualsTheVariantOperation : Prop :=
  ∀ (s : State) (u : Du) (i : Instr) (tag : XptTag), AtDu s u →
    (u.proto = 1 ∧ i = .decicmp ∧ tag = .icmp) ∨ (u.proto = 6 ∧ i = .dectcp ∧ tag = .tcp) ∨
      (u.proto = 17 ∧ i = .decudp ∧ tag = .udp) →
    ∃ st res, exec i s = duLeaves s u st res ∧
      exec .decxpt s = duLeaves s u st { res with xpt := if st = 0x00 then some tag else none }

/-- R185, R186, R187: DECPAY tags a buffer TEXT, with the scalar values of its patterns in order, when it is a
concatenation of the byte patterns of R186, and BINARY when it is not; the bytes are unchanged and ST is zero. -/
def Obligations.DecpayReadsExactlyUtf8 : Prop :=
  ∀ (s : State) (u : Du), AtDu s u →
    (∀ cs : List Nat, Utf8Text u.buf cs → exec .decpay s = duLeaves s u 0x00 { Res.empty with
      txtTag := some .text, txtBytes := some u.buf, txtChars := some (cs.map (BitVec.ofNat 21)) }) ∧
    ((¬ ∃ cs, Utf8Text u.buf cs) → exec .decpay s = duLeaves s u 0x00 { Res.empty with
      txtTag := some .binary, txtBytes := some u.buf })

/-- R185: "A buffer of ASCII bytes 00..7f only is always TEXT", each byte its own scalar value. -/
def Obligations.DecpayAsciiIsText : Prop :=
  ∀ (s : State) (u : Du), AtDu s u → (∀ v ∈ u.buf, v.toNat ≤ 0x7F) →
    exec .decpay s = duLeaves s u 0x00 { Res.empty with
      txtTag := some .text, txtBytes := some u.buf, txtChars := some (u.buf.map fun v => v.setWidth 21) }

/-! ### DISSECT -/

/-- R198: a frame whose ethertype bytes are not `08 00` ends after layer 1 with success, under either `T` and either
`ETYPE_SWAP`. -/
def Obligations.DissectStopsAtNonIpv4 : Prop :=
  ∀ (s : State) (u : Du) (t : Bool), AtDu s u → 14 ≤ u.buf.length →
    ¬ (u.buf.getD 12 0 = 0x08 ∧ u.buf.getD 13 0 = 0x00) →
    exec (.dissect t) s = duLeaves s u 0x00 { Res.empty with
      ethValid := some true, ip4Valid := some false, xpt := some .notDecoded, txtTag := some .notTried
      eth := some (ethRecOf s.cfg.etypeSwap u.buf) }

/-- R199, R195: an error at layer 1, 2 or 3 is TruncatedFrame with that `elayer`; the records of the layers before it
stand with their valid bits 1, and nothing of that layer or a later one holds a value. -/
def Obligations.DissectErrorKeepsOuterRecords : Prop :=
  ∀ (s : State) (u : Du) (t : Bool) (p1 : Bytes), AtDu s u → p1 = u.buf.drop 14 →
    (u.buf.length < 14 → exec (.dissect t) s = duLeaves s u 0x09 { Res.empty with
      ethValid := some false, ip4Valid := some false, xpt := some .notDecoded, txtTag := some .notTried }) ∧
    (14 ≤ u.buf.length → u.buf.getD 12 0 = 0x08 → u.buf.getD 13 0 = 0x00 →
      (p1.length < 20 ∨ p1.length < ihlBytes p1) → exec (.dissect t) s = duLeaves s u 0x11 { Res.empty with
        ethValid := some true, ip4Valid := some false, xpt := some .notDecoded, txtTag := some .notTried
        eth := some (ethRecOf s.cfg.etypeSwap u.buf) }) ∧
    (14 ≤ u.buf.length → u.buf.getD 12 0 = 0x08 → u.buf.getD 13 0 = 0x00 →
      20 ≤ p1.length → ihlBytes p1 ≤ p1.length →
      ((p1.getD 9 0 = 1 ∧ p1.length - ihlBytes p1 < 4) ∨ (p1.getD 9 0 = 6 ∧ p1.length - ihlBytes p1 < 14) ∨
        (p1.getD 9 0 = 17 ∧ p1.length - ihlBytes p1 < 8)) → exec (.dissect t) s = duLeaves s u 0x19 { Res.empty with
        ethValid := some true, ip4Valid := some true, xpt := some .notDecoded, txtTag := some .notTried
        eth := some (ethRecOf s.cfg.etypeSwap u.buf), ip4 := some (ip4RecOf p1) })

/-- R201: an unlisted protocol number ends the chain with UNKNOWN carrying the IPv4 payload, whatever `T` is. -/
def Obligations.DissectUnknownProtocol : Prop :=
  ∀ (s : State) (u : Du) (t : Bool) (p1 : Bytes), AtDu s u → p1 = u.buf.drop 14 → 14 ≤ u.buf.length →
    u.buf.getD 12 0 = 0x08 → u.buf.getD 13 0 = 0x00 → 20 ≤ p1.length → ihlBytes p1 ≤ p1.length →
    p1.getD 9 0 ≠ 1 → p1.getD 9 0 ≠ 6 → p1.getD 9 0 ≠ 17 →
    exec (.dissect t) s = duLeaves s u 0x00 { Res.empty with
      ethValid := some true, ip4Valid := some true, xpt := some .unknown, txtTag := some .notTried
      eth := some (ethRecOf s.cfg.etypeSwap u.buf), ip4 := some (ip4RecOf p1)
      unk := some (p1.drop (ihlBytes p1)) }

/-- R195, R196, R200: a whole IPv4 frame with a listed protocol leaves all records; with `T = 0` no text is tried; with
`T = 1` the transport payload's text is tried, TEXT or BINARY. -/
def Obligations.DissectDecodesEveryLayer : Prop :=
  ∀ (s : State) (u : Du) (p1 p2 : Bytes) (res : Res) (pay : Bytes), AtDu s u → p1 = u.buf.drop 14 →
    14 ≤ u.buf.length → u.buf.getD 12 0 = 0x08 → u.buf.getD 13 0 = 0x00 → 20 ≤ p1.length → ihlBytes p1 ≤ p1.length →
    p2 = p1.drop (ihlBytes p1) →
    (p1.getD 9 0 = 1 ∧ 4 ≤ p2.length ∧ pay = p2.drop 4 ∧
        res = { Res.empty with icmp := some (icmpRecOf p2), xpt := some .icmp }) ∨
      (p1.getD 9 0 = 6 ∧ 14 ≤ p2.length ∧ pay = p2.drop (min ((p2.getD 12 0).toNat / 16 * 4) p2.length) ∧
        res = { Res.empty with tcp := some (tcpRecOf p2), xpt := some .tcp }) ∨
      (p1.getD 9 0 = 17 ∧ 8 ≤ p2.length ∧ pay = p2.drop 8 ∧
        res = { Res.empty with udp := some (udpRecOf p2), xpt := some .udp }) →
    exec (.dissect false) s = duLeaves s u 0x00 { res with
      ethValid := some true, ip4Valid := some true, txtTag := some .notTried
      eth := some (ethRecOf s.cfg.etypeSwap u.buf), ip4 := some (ip4RecOf p1) } ∧
    (∀ cs, decodeUtf8 pay = some cs → exec (.dissect true) s = duLeaves s u 0x00 { res with
      ethValid := some true, ip4Valid := some true
      eth := some (ethRecOf s.cfg.etypeSwap u.buf), ip4 := some (ip4RecOf p1)
      txtTag := some .text, txtBytes := some pay, txtChars := some cs }) ∧
    (decodeUtf8 pay = none → exec (.dissect true) s = duLeaves s u 0x00 { res with
      ethValid := some true, ip4Valid := some true
      eth := some (ethRecOf s.cfg.etypeSwap u.buf), ip4 := some (ip4RecOf p1)
      txtTag := some .binary, txtBytes := some pay })

/-- R202: for every frame, DISSECT leaves the ST and RES that the host obtains by issuing DECETH, DECIP4, DECXPT and
DECPAY by hand, each on the payload the one before returned. -/
def Obligations.DissectEqualsTheManualChain : Prop :=
  ∀ (s : State) (u : Du) (t : Bool), AtDu s u →
    ∃ st res, manualChain t u.buf s = some (st, res) ∧ exec (.dissect t) s = duLeaves s u st res

/-- R200: the `T` bit changes nothing but the text fields. -/
def Obligations.TextBitChangesOnlyText : Prop :=
  ∀ (s : State) (u : Du), AtDu s u →
    ∃ st r0 r1, exec (.dissect false) s = duLeaves s u st r0 ∧ exec (.dissect true) s = duLeaves s u st r1 ∧
      r0.withoutText = r1.withoutText

/-- R134: `ETYPE_SWAP` changes nothing but the number reported as ethertype, in every DU operation. -/
def Obligations.EthertypeSwapChangesOnlyTheNumber : Prop :=
  ∀ (i : Instr) (s : State) (u : Du), i.unit = .du → AtDu s u →
    ∃ st r0 r1,
      exec i { s with cfg := { s.cfg with etypeSwap := false } } =
        duLeaves { s with cfg := { s.cfg with etypeSwap := false } } u st r0 ∧
      exec i { s with cfg := { s.cfg with etypeSwap := true } } =
        duLeaves { s with cfg := { s.cfg with etypeSwap := true } } u st r1 ∧
      r0.withoutEthertype = r1.withoutEthertype

/-! ### All DU operations -/

/-- R241 (its DU rows), R195: every DU operation completes on every operand, and its ST is the table's. -/
def Obligations.DuStatusFollowsTheErrorTable : Prop :=
  ∀ (i : Instr) (s : State) (u : Du), i.unit = .du → AtDu s u →
    ∃ res, exec i s = duLeaves s u (expectedSt i u.proto u.buf) res

/-- R37: after a DU operation a field of RES holds a value only if the operation writes the part it belongs to. -/
def Obligations.DuWritesOnlyItsFields : Prop :=
  ∀ (i : Instr) (s t : State) (v : Du) (f : ResField), i.unit = .du → exec i s = .next t → t.dus[s.sel]? = some v →
    f.part ∉ instrWrites i → v.res.get f = none

/-- R38: ST and RES after a DU operation depend on CMD (the operation), BUF, its length and PROTO, and on `ETYPE_SWAP` and
`MAX_FRAME_LEN` alone: two states that agree on these get the same, whatever else they hold. -/
def Obligations.DuResultsDependOnOperandsAlone : Prop :=
  ∀ (i : Instr) (s₁ s₂ t₁ : State) (u₁ u₂ v₁ : Du), i.unit = .du → exec i s₁ = .next t₁ →
    s₁.dus[s₁.sel]? = some u₁ → s₂.dus[s₂.sel]? = some u₂ → s₁.cfg.etypeSwap = s₂.cfg.etypeSwap →
    s₁.cfg.maxFrameLen = s₂.cfg.maxFrameLen → u₁.buf = u₂.buf → u₁.proto = u₂.proto →
    t₁.dus[s₁.sel]? = some v₁ → exec i s₂ = duLeaves s₂ u₂ v₁.st v₁.res

/-- R262, R203, R39: a DU operation changes ST and RES of its unit and nothing else: no operand, no other DU, nothing
of the CWU, no byte of SINK, no draw. -/
def Obligations.DuOperationsChangeOnlyTheirResults : Prop :=
  ∀ (i : Instr) (s t : State), i.unit = .du → exec i s = .next t →
    ∃ u st res, s.dus[s.sel]? = some u ∧ t = { s with dus := s.dus.set s.sel { u with st := st, res := res } } ∧
      (∀ k, k ≠ s.sel → t.dus[k]? = s.dus[k]?) ∧ (∀ a : Nat, t.sink[a]? = s.sink[a]?)

/-- R60: a DU operation may be repeated with the same result. -/
def Obligations.DuOperationsRepeat : Prop :=
  ∀ (i : Instr) (s t : State), i.unit = .du → exec i s = .next t → exec i t = .next t

/-- R262: operations of two DUs leave the same whichever runs first. -/
def Obligations.DusDoNotInterfere : Prop :=
  ∀ (i j : Instr) (s t₁ t₂ : State) (k m : Nat), i.unit = .du → j.unit = .du → k ≠ m →
    exec i { s with sel := k } = .next t₁ → exec j { t₁ with sel := m } = .next t₂ →
    ∃ t₃, exec j { s with sel := m } = .next t₃ ∧ exec i { t₃ with sel := k } = .next { t₂ with sel := k }

/-- R203, R262, R2: an operation of a DU and one of the CWU leave the same whichever runs first. -/
def Obligations.DuAndCwuCommute : Prop :=
  ∀ (i j : Instr) (s t : State), i.unit = .du → j.unit = .cwu →
    ((∃ s₁, exec i s = .next s₁ ∧ exec j s₁ = .next t) ↔ (∃ s₂, exec j s = .next s₂ ∧ exec i s₂ = .next t))

/-- R51: no operation, and no step, ever reads the operand buffer outside its bounds. -/
def Obligations.NoReadOutOfBounds : Prop :=
  (∀ (i : Instr) (s : State) (e : Fault), exec i s ≠ .fault e) ∧ (∀ (s : State) (e : Fault), step s ≠ .fault e)

/-! ### The capture writer -/

/-- R58: `SinkWrite(bs)` draws one answer; it appends all of `bs` and answers ok, or appends a proper part from its start
and answers fail; no bytes are always taken; nothing but SINK and the record of draws changes. How the answers are
supplied and counted is log entry 6, and that a write of no bytes draws none is log entry 7. -/
def Obligations.SinkWriteAppendsAllOrAProperPart : Prop :=
  ∀ (bs : Bytes) (s t : State) (ok : Bool), sinkWrite bs s = (ok, t) →
    (∃ e, t = { s with sink := t.sink, env := e }) ∧
    (bs ≠ [] → t.env = { s.env with answers := s.env.answers.tail, answersUsed := s.env.answersUsed + 1 }) ∧
    (ok = true → t.sink = s.sink ++ bs) ∧
    (ok = false → ∃ p, p <+: bs ∧ p.length < bs.length ∧ t.sink = s.sink ++ p) ∧
    (bs = [] → ok = true ∧ t = s)

/-- R58, U9: the sink's answer decides: each answer it can give, ok or any proper length kept, has its effect. -/
def Obligations.SinkAnswerDecidesTheWrite : Prop :=
  ∀ (bs : Bytes) (s : State) (as : List SinkAnswer) (k : Nat), bs ≠ [] →
    (s.env.answers = .ok :: as → (sinkWrite bs s).1 = true ∧ (sinkWrite bs s).2.sink = s.sink ++ bs) ∧
    (s.env.answers = .fail k :: as → k < bs.length →
      (sinkWrite bs s).1 = false ∧ (sinkWrite bs s).2.sink = s.sink ++ bs.take k)

/-- R210, R211: CWOPEN from CLOSED with a sink that answers ok binds the presented sink, appends the 24 header bytes in
the file's byte order and leaves OPEN with ST zero; nothing else changes but the answer drawn. That the sink is bound
with the content it is presented with is log entry 10, that it stays presented is log entry 20, and how the answer is
supplied is log entry 6. -/
def Obligations.CwopenWritesTheGlobalHeader : Prop :=
  ∀ (s : State) (as : List SinkAnswer), s.cwu.cws = .closed → s.env.answers = .ok :: as →
    exec .cwopen s = .next { s with
      cwu := { s.cwu with st := 0x00, cws := .opened }
      env := { s.env with answers := as, answersUsed := s.env.answersUsed + 1 }
      sink := s.offered ++
        (if s.cfg.capBigEndian then
          [0xA1, 0xB2, 0xC3, 0xD4, 0x00, 0x02, 0x00, 0x04, 0x00, 0x00, 0x00, 0x00, 0x00, 0x00, 0x00, 0x00,
            0x00, 0x00, 0xFF, 0xFF, s.cwu.ltype.extractLsb' 24 8, s.cwu.ltype.extractLsb' 16 8,
            s.cwu.ltype.extractLsb' 8 8, s.cwu.ltype.extractLsb' 0 8]
        else
          [0xD4, 0xC3, 0xB2, 0xA1, 0x02, 0x00, 0x04, 0x00, 0x00, 0x00, 0x00, 0x00, 0x00, 0x00, 0x00, 0x00,
            0xFF, 0xFF, 0x00, 0x00, s.cwu.ltype.extractLsb' 0 8, s.cwu.ltype.extractLsb' 8 8,
            s.cwu.ltype.extractLsb' 16 8, s.cwu.ltype.extractLsb' 24 8]) }

/-- R213: CWOPEN from CLOSED with a sink that fails the header write, keeping `k` bytes, is IoError; the writer stays
CLOSED, and SINK is what was presented and those bytes. Log entries 6, 10 and 20 as for CwopenWritesTheGlobalHeader. -/
def Obligations.CwopenSinkFailure : Prop :=
  ∀ (s : State) (k : Nat) (as : List SinkAnswer), s.cwu.cws = .closed → s.env.answers = .fail k :: as → k < 24 →
    exec .cwopen s = .next { s with
      cwu := { s.cwu with st := 0x03, cws := .closed }
      env := { s.env with answers := as, answersUsed := s.env.answersUsed + 1 }
      sink := s.offered ++ (globalHeader s.cfg.capBigEndian s.cwu.ltype).take k }

/-- R214, R215, R217: CWWRITE while OPEN with a sink that answers ok draws the time once, appends the 16-byte header and
then the frame, two answers for a frame of at least one byte and one for an empty frame; the writer stays OPEN. -/
def Obligations.CwwriteAppendsTheRecord : Prop :=
  ∀ (s : State) (d : TimeDraw) (ds : List TimeDraw) (as : List SinkAnswer), s.cwu.cws = .opened →
    s.cwu.buf.length ≤ s.cfg.maxFrameLen → s.env.times = d :: ds →
    (s.cwu.buf ≠ [] → s.env.answers = .ok :: .ok :: as → exec .cwwrite s = .next { s with
      cwu := { s.cwu with st := 0x00, cws := .opened }
      env := ⟨ds, s.env.timesUsed + 1, as, s.env.answersUsed + 2⟩
      sink := s.sink ++ recordHeader s.cfg.capBigEndian d s.cwu.buf.length ++ s.cwu.buf }) ∧
    (s.cwu.buf = [] → s.env.answers = .ok :: as → exec .cwwrite s = .next { s with
      cwu := { s.cwu with st := 0x00, cws := .opened }
      env := ⟨ds, s.env.timesUsed + 1, as, s.env.answersUsed + 1⟩
      sink := s.sink ++ recordHeader s.cfg.capBigEndian d 0 })

/-- R90, R216, R258: the record header's four fields, read back in the file's byte order: seconds modulo 2^32, the
microseconds of a well-formed draw, and the length twice. -/
def Obligations.RecordHeaderFields : Prop :=
  ∀ (big : Bool) (d : TimeDraw) (n : Nat), d.wf = true → n < 2 ^ 32 →
    (recordHeader big d n).length = 16 ∧
    readU32 big ((recordHeader big d n).take 4) = d.sec % 2 ^ 32 ∧
    readU32 big (((recordHeader big d n).drop 4).take 4) = d.usec ∧
    readU32 big (((recordHeader big d n).drop 8).take 4) = n ∧
    readU32 big ((recordHeader big d n).drop 12) = n

/-- R214, R215, R221, R245: a sink that fails the first write leaves a part of the header and the second write is not
tried; one that fails the second leaves the header and a part of the frame; either is IoError and OPEN_FAILED. -/
def Obligations.CwwriteSinkFailure : Prop :=
  ∀ (s : State) (d : TimeDraw) (ds : List TimeDraw) (as : List SinkAnswer) (k : Nat), s.cwu.cws = .opened →
    s.cwu.buf.length ≤ s.cfg.maxFrameLen → s.env.times = d :: ds →
    (s.env.answers = .fail k :: as → k < 16 → exec .cwwrite s = .next { s with
      cwu := { s.cwu with st := 0x03, cws := .openFailed }
      env := ⟨ds, s.env.timesUsed + 1, as, s.env.answersUsed + 1⟩
      sink := s.sink ++ (recordHeader s.cfg.capBigEndian d s.cwu.buf.length).take k }) ∧
    (s.env.answers = .ok :: .fail k :: as → k < s.cwu.buf.length → exec .cwwrite s = .next { s with
      cwu := { s.cwu with st := 0x03, cws := .openFailed }
      env := ⟨ds, s.env.timesUsed + 1, as, s.env.answersUsed + 2⟩
      sink := s.sink ++ recordHeader s.cfg.capBigEndian d s.cwu.buf.length ++ s.cwu.buf.take k })

/-- R220: CWWRITE while CLOSED is ClosedWriter; the writer stays CLOSED, no time is drawn and the sink is not asked. -/
def Obligations.CwwriteWhileClosed : Prop :=
  ∀ s : State, s.cwu.cws = .closed → s.cwu.buf.length ≤ s.cfg.maxFrameLen →
    exec .cwwrite s = .next { s with cwu := { s.cwu with st := 0x04 } }

/-- R218, R219: CWCLOSE completes from every state: CLOSED, ST zero, SINK as it was, nothing drawn; and again it changes
nothing. -/
def Obligations.CwcloseReleasesTheSink : Prop :=
  ∀ s : State, exec .cwclose s = .next { s with cwu := { s.cwu with st := 0x00, cws := .closed } } ∧
    ∀ t, exec .cwclose s = .next t → exec .cwclose t = .next t

/-- R222: every state of the writer with every operation of it: CWS after and ST, or refused. Whether the sink took each
write is seen in SINK (R210, R213, R214, R58): all of the header or the record, or a proper part of it, after what was there. What was
there for CWOPEN is the content of the presented sink, whatever it is: log entry 10. -/
def Obligations.WriterStateTable : Prop :=
  ∀ s : State, s.cwu.buf.length ≤ s.cfg.maxFrameLen →
    (s.cwu.cws = .closed →
      (∃ t, exec .cwopen s = .next t ∧
        ((t.cwu.cws = .opened ∧ t.cwu.st = 0x00 ∧ t.sink = s.offered ++ globalHeader s.cfg.capBigEndian s.cwu.ltype) ∨
          (t.cwu.cws = .closed ∧ t.cwu.st = 0x03 ∧
            ∃ p, p <+: globalHeader s.cfg.capBigEndian s.cwu.ltype ∧ p.length < 24 ∧ t.sink = s.offered ++ p))) ∧
      (∃ t, exec .cwwrite s = .next t ∧ t.cwu.cws = .closed ∧ t.cwu.st = 0x04) ∧
      (∃ t, exec .cwclose s = .next t ∧ t.cwu.cws = .closed ∧ t.cwu.st = 0x00)) ∧
    (s.cwu.cws = .opened →
      exec .cwopen s = .refused .cwopenWhileOpen ∧
      (∃ t, exec .cwwrite s = .next t ∧
        ∃ d, ((t.cwu.cws = .opened ∧ t.cwu.st = 0x00 ∧
            t.sink = s.sink ++ recordBytes s.cfg.capBigEndian ⟨d, s.cwu.buf⟩) ∨
          (t.cwu.cws = .openFailed ∧ t.cwu.st = 0x03 ∧
            ∃ p, p <+: recordBytes s.cfg.capBigEndian ⟨d, s.cwu.buf⟩ ∧ p.length < 16 + s.cwu.buf.length ∧
              t.sink = s.sink ++ p))) ∧
      (∃ t, exec .cwclose s = .next t ∧ t.cwu.cws = .closed ∧ t.cwu.st = 0x00)) ∧
    (s.cwu.cws = .openFailed →
      exec .cwopen s = .refused .cwopenWhileOpenFailed ∧ exec .cwwrite s = .refused .cwwriteWhileOpenFailed ∧
      (∃ t, exec .cwclose s = .next t ∧ t.cwu.cws = .closed ∧ t.cwu.st = 0x00))

/-- R61, R262, R52: an operation of the CWU changes its ST and CWS, SINK and the record of draws, and nothing else: no
operand, no DU, no parameter; CWWRITE and CWCLOSE leave every byte already in SINK where it is, and CWCLOSE adds none.
CWOPEN takes over another sink, the presented one, and leaves every byte of its content where it is, if it has any: log
entry 10. That the presented sink stays presented is log entry 20. -/
def Obligations.CwuOperationsFrame : Prop :=
  ∀ (j : Instr) (s t : State), j.unit = .cwu → exec j s = .next t →
    t = { s with cwu := { s.cwu with st := t.cwu.st, cws := t.cwu.cws }, sink := t.sink, env := t.env } ∧
    (j ≠ .cwopen → ∀ a < s.sink.length, t.sink[a]? = s.sink[a]?) ∧
    (j = .cwclose → t.sink = s.sink ∧ t.env = s.env) ∧
    (j = .cwopen → (∀ a < s.offered.length, t.sink[a]? = s.offered[a]?) ∧ t.env.times = s.env.times)

/-- R224: if CWOPEN on an empty sink succeeds and then CWWRITE of N frames all succeed, SINK is the header and the N
records in write order; a reader of the file gets the fixed constants, the link type, and N records with
`incl_len = orig_len = len(frame)` and the frames' bytes; and CWCLOSE leaves it so. With a sink that answers ok to every
write (R58; supplied in the state: log entry 6), they do all succeed. -/
def Obligations.CaptureRoundTrip : Prop :=
  ∀ (s : State) (fs : List Bytes), s.cwu.cws = .closed → s.offered = [] → s.cfg.wf = true →
    (∀ t₀ t, exec .cwopen s = .next t₀ → t₀.cwu.cws = .opened → writeFrames fs t₀ = some t → t.cwu.cws = .opened →
      ∃ ds, ds.length = fs.length ∧
        t.sink = captureFile s.cfg.capBigEndian s.cwu.ltype (List.zipWith FrameWrite.mk ds fs) ∧
        readFile s.cfg.capBigEndian t.sink = some
          { magic := 0xA1B2C3D4, versionMajor := 2, versionMinor := 4, thiszone := 0, sigfigs := 0, snaplen := 65535
            linktype := s.cwu.ltype.toNat
            records := List.zipWith (fun (d : TimeDraw) f =>
              { tsSec := d.sec % 2 ^ 32, tsUsec := d.usec % 2 ^ 32, inclLen := f.length, origLen := f.length
                frame := f }) ds fs } ∧
        ∃ c, exec .cwclose t = .next c ∧ c.sink = t.sink) ∧
    ((∀ f ∈ fs, f.length ≤ s.cfg.maxFrameLen) → (∀ a ∈ s.env.answers, a = .ok) →
      1 + 2 * fs.length ≤ s.env.answers.length →
      ∃ t₀ t, exec .cwopen s = .next t₀ ∧ t₀.cwu.cws = .opened ∧ writeFrames fs t₀ = some t ∧ t.cwu.cws = .opened)

/-- R277, R58: where a record was cut short, a reader detects it: the file does not read back. -/
def Obligations.PartialTailIsDetectable : Prop :=
  ∀ (big : Bool) (l : BitVec 32) (rs : List FrameWrite) (r : FrameWrite) (p : Bytes),
    (∀ x ∈ r :: rs, x.frame.length < 2 ^ 32) → p ≠ [] → p <+: recordBytes big r →
    p.length < (recordBytes big r).length → readFile big (captureFile big l rs ++ p) = none

/-! ### Invariants of every step -/

/-- R22, R23, R28 to R36: every register stays within what the spec gives it. -/
def Obligations.StepKeepsRegistersLegal : Prop :=
  ∀ s t : State, s.wf = true → step s = .next t → t.wf = true

/-- R41: the registers are within what the spec gives them at reset. The values are those of log entries 3, 4 and, for
ST, 19. -/
def Obligations.ResetRegistersAreLegal : Prop := State.reset.wf = true

/-- R25, R57, R221: while every presented sink is empty, SINK stays a whole capture file in OPEN, and a whole capture
file with one record cut short in OPEN_FAILED. That the presented sink is still empty after a CWOPEN, and so that a
second file opened with no new presentation is whole, rests on log entry 20 (a presented sink stays presented, unsafe);
that it is bound with the content it is presented with is log entry 10. -/
def Obligations.StepKeepsTheCaptureFile : Prop :=
  ∀ s t : State, EmptySinks s → FileWf s → step s = .next t → EmptySinks t ∧ FileWf t

/-- R41: no sink is owned at reset, so there is nothing to be whole; the model's presented sink is empty (log entry 10). -/
def Obligations.ResetOwnsNoSink : Prop := EmptySinks State.reset ∧ FileWf State.reset

/-- R26, R6: no step changes a parameter, `N_DU` among them. -/
def Obligations.ParametersAreFixed : Prop :=
  ∀ s t : State, step s = .next t → t.cfg = s.cfg ∧ t.dus.length = s.dus.length

/-! ### Reset and the host's accesses -/

/-- R41: CWS is CLOSED, each unit's ST is zero, and every field of RES holds no value. That R41 is followed for ST, where
D28 says otherwise, is log entry 19; that there is one DU is log entry 4. -/
def Obligations.ResetState : Prop :=
  State.reset.cwu.cws = .closed ∧ State.reset.cwu.st = 0x00 ∧ State.reset.dus.length = 1 ∧
  ∀ u ∈ State.reset.dus, u.st = 0x00 ∧ ∀ f, u.res.get f = none

/-- R270, R41, R26: a reset, in any state, brings CWS to CLOSED, each ST to zero (R41; log entry 19) and every RES to no
value; nothing is written to the sink. That a reset event leaves the parameters and the number of DUs is log entry 16. -/
def Obligations.ResetReleasesTheSink : Prop :=
  ∀ (s : State) (rest : List HostEvent), s.inbox = .access .reset :: rest →
    ∃ t, step s = .next t ∧ t.cwu.cws = .closed ∧ t.cwu.st = 0x00 ∧ t.sink = s.sink ∧ t.cfg = s.cfg ∧
      t.dus.length = s.dus.length ∧ ∀ u ∈ t.dus, u.st = 0x00 ∧ ∀ f, u.res.get f = none

/-- R37, X7, R60: a host read of a RES field that holds a value delivers it and changes nothing else; of one that holds
none, it is refused. The list of requests is log entry 1, and where the value is delivered is log entry 13. -/
def Obligations.ResultReads : Prop :=
  ∀ (s : State) (k : Nat) (u : Du) (f : ResField) (rest : List HostEvent),
    s.inbox = .access (.readRes k f) :: rest → s.dus[k]? = some u →
    (∀ v, u.res.get f = some v → step s = .next { s with inbox := rest, hostRead := some v }) ∧
    (u.res.get f = none → step s = .refused (.resHoldsNoValue f))

/-- R23, R25, R60: a host read of ST or CWS delivers its code and changes nothing else. The list of requests is log entry
1, and where the code is delivered is log entry 13. -/
def Obligations.StatusReads : Prop :=
  ∀ (s : State) (rest : List HostEvent),
    (∀ k u, s.inbox = .access (.readSt (.du k)) :: rest → s.dus[k]? = some u →
      step s = .next { s with inbox := rest, hostRead := some (.num u.st.toNat) }) ∧
    (s.inbox = .access (.readSt .cwu) :: rest →
      step s = .next { s with inbox := rest, hostRead := some (.num s.cwu.st.toNat) }) ∧
    (s.inbox = .access .readCws :: rest →
      step s = .next { s with inbox := rest, hostRead := some (.num s.cwu.cws.code.toNat) })

/-- R22, R39: a host write of an operand register changes that register and notes that it is written; results of
earlier operations and the other registers stay. The model's own in it: BUFLEN goes with BUF (log entry 8), a write of a
BUF longer than MAX_FRAME_LEN is itself refused, where X6 speaks of requests (entry 9), and the written bits (entry 14). -/
def Obligations.OperandWrites : Prop :=
  ∀ (s : State) (rest : List HostEvent) (b : Bytes) (v : Byte) (l : BitVec 32),
    (∀ k u, s.inbox = .access (.loadBuf (.du k) b) :: rest → s.dus[k]? = some u → b.length ≤ s.cfg.maxFrameLen →
      step s = .next { s with
        inbox := rest, dus := s.dus.set k { u with buf := b, written := { u.written with buf := true } } }) ∧
    (s.inbox = .access (.loadBuf .cwu b) :: rest → b.length ≤ s.cfg.maxFrameLen →
      step s = .next { s with
        inbox := rest, cwu := { s.cwu with buf := b, written := { s.cwu.written with buf := true } } }) ∧
    (∀ p, s.inbox = .access (.loadBuf p b) :: rest → s.cfg.maxFrameLen < b.length → step s = .refused .frameTooLong) ∧
    (∀ k u, s.inbox = .access (.loadProto k v) :: rest → s.dus[k]? = some u →
      step s = .next { s with
        inbox := rest, dus := s.dus.set k { u with proto := v, written := { u.written with proto := true } } }) ∧
    (s.inbox = .access (.loadLtype l) :: rest →
      step s = .next { s with
        inbox := rest, cwu := { s.cwu with ltype := l, written := { s.cwu.written with ltype := true } } })

/-- R41, R60, X8: a host read of an operand register the host has written since reset delivers its value and changes
nothing else; of one it has not written, it is refused. That such a read stops the model, and how the model knows that
a register is written, is log entry 14; that BUFLEN is the length of BUF is entry 8, and the delivery entry 13. -/
def Obligations.OperandReads : Prop :=
  ∀ (s : State) (rest : List HostEvent),
    (∀ k u r v w, s.inbox = .access (.readOperand (.du k) r) :: rest → s.dus[k]? = some u →
      ((r = .cmd ∧ v = .num u.cmd.toNat ∧ w = u.written.cmd) ∨ (r = .buf ∧ v = .bytes u.buf ∧ w = u.written.buf) ∨
        (r = .buflen ∧ v = .num u.buf.length ∧ w = u.written.buf) ∨
        (r = .proto ∧ v = .num u.proto.toNat ∧ w = u.written.proto)) →
      (w = true → step s = .next { s with inbox := rest, hostRead := some v }) ∧
      (w = false → step s = .refused (.operandNotWritten r))) ∧
    (∀ r v w, s.inbox = .access (.readOperand .cwu r) :: rest →
      ((r = .cmd ∧ v = .num s.cwu.cmd.toNat ∧ w = s.cwu.written.cmd) ∨
        (r = .buf ∧ v = .bytes s.cwu.buf ∧ w = s.cwu.written.buf) ∨
        (r = .buflen ∧ v = .num s.cwu.buf.length ∧ w = s.cwu.written.buf) ∨
        (r = .ltype ∧ v = .num s.cwu.ltype.toNat ∧ w = s.cwu.written.ltype)) →
      (w = true → step s = .next { s with inbox := rest, hostRead := some v }) ∧
      (w = false → step s = .refused (.operandNotWritten r)))

/-- R210, R223, R273: presenting a sink changes what the next CWOPEN binds and nothing else: not the sink that is bound
now. That the host's choice is a field of the state is log entry 10. -/
def Obligations.PresentedSinkWaits : Prop :=
  ∀ (s : State) (b : Bytes) (rest : List HostEvent), s.inbox = .access (.offerSink b) :: rest →
    step s = .next { s with inbox := rest, offered := b }
end

