-- ==== Sys2Proof/Laws/State.lean ====
section
/-! SUPPORT. One lemma for each field and each named update of the state: what the update leaves in the field. -/

namespace Sys2Proof.Machine

open Sys2Proof

/-! ### `setDu` -/

@[simp] theorem State.setDu_cfg (s : State) (k : Nat) (u : Du) : (s.setDu k u).cfg = s.cfg := rfl
@[simp] theorem State.setDu_dus (s : State) (k : Nat) (u : Du) : (s.setDu k u).dus = s.dus.set k u := rfl
@[simp] theorem State.setDu_sel (s : State) (k : Nat) (u : Du) : (s.setDu k u).sel = s.sel := rfl
@[simp] theorem State.setDu_cwu (s : State) (k : Nat) (u : Du) : (s.setDu k u).cwu = s.cwu := rfl
@[simp] theorem State.setDu_sink (s : State) (k : Nat) (u : Du) : (s.setDu k u).sink = s.sink := rfl
@[simp] theorem State.setDu_offered (s : State) (k : Nat) (u : Du) : (s.setDu k u).offered = s.offered := rfl
@[simp] theorem State.setDu_env (s : State) (k : Nat) (u : Du) : (s.setDu k u).env = s.env := rfl
@[simp] theorem State.setDu_inbox (s : State) (k : Nat) (u : Du) : (s.setDu k u).inbox = s.inbox := rfl
@[simp] theorem State.setDu_hostRead (s : State) (k : Nat) (u : Du) : (s.setDu k u).hostRead = s.hostRead := rfl

/-! ### `endCwu` -/

@[simp] theorem State.endCwu_cfg (s : State) (e : Err) (c : Cws) : (s.endCwu e c).cfg = s.cfg := rfl
@[simp] theorem State.endCwu_dus (s : State) (e : Err) (c : Cws) : (s.endCwu e c).dus = s.dus := rfl
@[simp] theorem State.endCwu_sel (s : State) (e : Err) (c : Cws) : (s.endCwu e c).sel = s.sel := rfl
@[simp] theorem State.endCwu_cwu (s : State) (e : Err) (c : Cws) : (s.endCwu e c).cwu = { s.cwu with st := mkSt e .notLayered, cws := c } := rfl
@[simp] theorem State.endCwu_sink (s : State) (e : Err) (c : Cws) : (s.endCwu e c).sink = s.sink := rfl
@[simp] theorem State.endCwu_offered (s : State) (e : Err) (c : Cws) : (s.endCwu e c).offered = s.offered := rfl
@[simp] theorem State.endCwu_env (s : State) (e : Err) (c : Cws) : (s.endCwu e c).env = s.env := rfl
@[simp] theorem State.endCwu_inbox (s : State) (e : Err) (c : Cws) : (s.endCwu e c).inbox = s.inbox := rfl
@[simp] theorem State.endCwu_hostRead (s : State) (e : Err) (c : Cws) : (s.endCwu e c).hostRead = s.hostRead := rfl

/-! ### `raiseCwu` -/

@[simp] theorem raiseCwu_cfg (s : State) (e : Err) (c : Cws) : (raiseCwu s e c).cfg = s.cfg := rfl
@[simp] theorem raiseCwu_dus (s : State) (e : Err) (c : Cws) : (raiseCwu s e c).dus = s.dus := rfl
@[simp] theorem raiseCwu_sel (s : State) (e : Err) (c : Cws) : (raiseCwu s e c).sel = s.sel := rfl
@[simp] theorem raiseCwu_cwu (s : State) (e : Err) (c : Cws) : (raiseCwu s e c).cwu = { s.cwu with st := mkSt e .notLayered, cws := c } := rfl
@[simp] theorem raiseCwu_sink (s : State) (e : Err) (c : Cws) : (raiseCwu s e c).sink = s.sink := rfl
@[simp] theorem raiseCwu_offered (s : State) (e : Err) (c : Cws) : (raiseCwu s e c).offered = s.offered := rfl
@[simp] theorem raiseCwu_env (s : State) (e : Err) (c : Cws) : (raiseCwu s e c).env = s.env := rfl
@[simp] theorem raiseCwu_inbox (s : State) (e : Err) (c : Cws) : (raiseCwu s e c).inbox = s.inbox := rfl
@[simp] theorem raiseCwu_hostRead (s : State) (e : Err) (c : Cws) : (raiseCwu s e c).hostRead = s.hostRead := rfl

/-! ### `deliver` -/

@[simp] theorem State.deliver_cfg (s : State) (v : HostVal) : (s.deliver v).cfg = s.cfg := rfl
@[simp] theorem State.deliver_dus (s : State) (v : HostVal) : (s.deliver v).dus = s.dus := rfl
@[simp] theorem State.deliver_sel (s : State) (v : HostVal) : (s.deliver v).sel = s.sel := rfl
@[simp] theorem State.deliver_cwu (s : State) (v : HostVal) : (s.deliver v).cwu = s.cwu := rfl
@[simp] theorem State.deliver_sink (s : State) (v : HostVal) : (s.deliver v).sink = s.sink := rfl
@[simp] theorem State.deliver_offered (s : State) (v : HostVal) : (s.deliver v).offered = s.offered := rfl
@[simp] theorem State.deliver_env (s : State) (v : HostVal) : (s.deliver v).env = s.env := rfl
@[simp] theorem State.deliver_inbox (s : State) (v : HostVal) : (s.deliver v).inbox = s.inbox := rfl
@[simp] theorem State.deliver_hostRead (s : State) (v : HostVal) : (s.deliver v).hostRead = some v := rfl

/-! ### `resetBlock` -/

@[simp] theorem State.resetBlock_cfg (s : State) : (s.resetBlock).cfg = s.cfg := rfl
@[simp] theorem State.resetBlock_dus (s : State) : (s.resetBlock).dus = s.dus.map (fun _ => Du.reset) := rfl
@[simp] theorem State.resetBlock_sel (s : State) : (s.resetBlock).sel = s.sel := rfl
@[simp] theorem State.resetBlock_cwu (s : State) : (s.resetBlock).cwu = Cwu.reset := rfl
@[simp] theorem State.resetBlock_sink (s : State) : (s.resetBlock).sink = s.sink := rfl
@[simp] theorem State.resetBlock_offered (s : State) : (s.resetBlock).offered = s.offered := rfl
@[simp] theorem State.resetBlock_env (s : State) : (s.resetBlock).env = s.env := rfl
@[simp] theorem State.resetBlock_inbox (s : State) : (s.resetBlock).inbox = s.inbox := rfl
@[simp] theorem State.resetBlock_hostRead (s : State) : (s.resetBlock).hostRead = s.hostRead := rfl

end Sys2Proof.Machine
end

