-- ==== Sys2Proof/Laws/Reads.lean ====
section
/-! SUPPORT. What each operand read answers (R8, R10, R51), and with it what each decoder body answers: TruncatedFrame
below its minimum length, and otherwise one record, written out. Later proofs cite these and do not unfold the bodies. -/

namespace Sys2Proof.Machine

open Sys2Proof

/-! ### Reads -/

theorem requireLen_short {k : Nat} {b : Bytes} (h : b.length < k) : requireLen k b = .error (.raise .truncatedFrame) := by
  simp [requireLen, h]

theorem requireLen_fits {k : Nat} {b : Bytes} (h : k ≤ b.length) : requireLen k b = .ok () := by
  simp [requireLen, Nat.not_lt.mpr h]

theorem bufSlice_ok {b : Bytes} {i j : Nat} (hij : i ≤ j) (hj : j ≤ b.length) :
    bufSlice b i j = .ok ((b.drop i).take (j - i)) := by
  simp [bufSlice, slice, hij, hj]

theorem bufSlice_rest {b : Bytes} {i : Nat} (h : i ≤ b.length) : bufSlice b i b.length = .ok (b.drop i) := by
  rw [bufSlice_ok h le_rfl, List.take_of_length_le (by simp)]

/-- The `k` bytes at `off`, one by one. -/
theorem take_drop_succ (b : Bytes) (off k : Nat) (h : off < b.length) :
    (b.drop off).take (k + 1) = b.getD off 0 :: (b.drop (off + 1)).take k := by
  rw [List.drop_eq_getElem_cons h, List.take_succ_cons, List.getD_eq_getElem _ _ h]

theorem memRead_ok {b : Bytes} {off n : Nat} (h : off + n ≤ b.length) :
    memRead b off n = .ok (beValue ((b.drop off).take n)) := by
  simp [memRead, bufSlice_ok (Nat.le_add_right off n) h, bind, Except.bind, pure, Except.pure]

theorem memRead8_ok {b : Bytes} {off : Nat} (h : off + 1 ≤ b.length) : memRead8 b off = .ok (b.getD off 0) := by
  simp [memRead8, memRead_ok h, take_drop_succ b off 0 h, beValue, bind, Except.bind, pure, Except.pure]

theorem beValue_two (x y : Byte) : BitVec.ofNat 16 (beValue [x, y]) = x ++ y := by
  apply BitVec.eq_of_toNat_eq
  have hx := x.isLt
  have hy := y.isLt
  rw [BitVec.toNat_append, ← Nat.shiftLeft_add_eq_or_of_lt hy, Nat.shiftLeft_eq]
  simp [beValue]
  omega

theorem beValue_four (x y z w : Byte) : BitVec.ofNat 32 (beValue [x, y, z, w]) = x ++ y ++ z ++ w := by
  apply BitVec.eq_of_toNat_eq
  have hx := x.isLt
  have hy := y.isLt
  have hz := z.isLt
  have hw := w.isLt
  rw [BitVec.toNat_append, ← Nat.shiftLeft_add_eq_or_of_lt hw, BitVec.toNat_append, ← Nat.shiftLeft_add_eq_or_of_lt hz,
    BitVec.toNat_append, ← Nat.shiftLeft_add_eq_or_of_lt hy]
  simp only [beValue, List.foldl, BitVec.toNat_ofNat, Nat.shiftLeft_eq]
  omega

theorem memRead16_ok {b : Bytes} {off : Nat} (h : off + 2 ≤ b.length) :
    memRead16 b off = .ok (b.getD off 0 ++ b.getD (off + 1) 0) := by
  simp [memRead16, memRead_ok h, take_drop_succ b off 1 (by omega), take_drop_succ b (off + 1) 0 (by omega),
    beValue_two, bind, Except.bind, pure, Except.pure]

theorem memRead32_ok {b : Bytes} {off : Nat} (h : off + 4 ≤ b.length) :
    memRead32 b off = .ok (b.getD off 0 ++ b.getD (off + 1) 0 ++ b.getD (off + 2) 0 ++ b.getD (off + 3) 0) := by
  simp [memRead32, memRead_ok h, take_drop_succ b off 3 (by omega), take_drop_succ b (off + 1) 2 (by omega),
    take_drop_succ b (off + 2) 1 (by omega), take_drop_succ b (off + 3) 0 (by omega), beValue_four,
    bind, Except.bind, pure, Except.pure]

theorem swap16_append (x y : Byte) : swap16 (x ++ y) = y ++ x := by
  have hx := x.isLt
  have hy := y.isLt
  have e : (x ++ y : BitVec 16).toNat = x.toNat * 256 + y.toNat := by
    rw [BitVec.toNat_append, ← Nat.shiftLeft_add_eq_or_of_lt hy, Nat.shiftLeft_eq]
  simp only [swap16]
  congr 1
  · apply BitVec.eq_of_toNat_eq
    simp only [BitVec.extractLsb'_toNat, Nat.shiftRight_eq_div_pow, e]
    omega
  · apply BitVec.eq_of_toNat_eq
    simp only [BitVec.extractLsb'_toNat, Nat.shiftRight_eq_div_pow, e]
    omega

/-! ### Decoder bodies -/

theorem fmtBody_wrong {b : Bytes} (h : b.length ≠ 6) : fmtBody b = .error (.raise .malformedAddress) := by
  simp [fmtBody, h]

theorem fmtBody_six {b : Bytes} (h : b.length = 6) : fmtBody b = .ok (fmtAddr b) := by
  have h1 := bufSlice_rest (b := b) (i := 0) (by omega)
  simp only [h, List.drop_zero] at h1
  simp [fmtBody, h, h1, bind, Except.bind, pure, Except.pure]

theorem ethBody_short {swap : Bool} {b : Bytes} (h : b.length < 14) :
    ethBody swap b = .error (.raise .truncatedFrame) := by
  simp [ethBody, requireLen_short h, bind, Except.bind]

theorem ethBody_fits {swap : Bool} {b : Bytes} (h : 14 ≤ b.length) : ethBody swap b = .ok (ethRecOf swap b) := by
  simp [ethBody, requireLen_fits h, bufSlice_ok (b := b) (i := 0) (j := 6) (by omega) (by omega),
    bufSlice_ok (b := b) (i := 6) (j := 12) (by omega) (by omega), memRead16_ok (b := b) (off := 12) (by omega),
    bufSlice_rest h, swap16_append, ethRecOf, bind, Except.bind, pure, Except.pure]

theorem etherIsIpv4_fits {b : Bytes} (h : 14 ≤ b.length) :
    etherIsIpv4 b = .ok (b.getD 12 0 == 0x08 && b.getD 13 0 == 0x00) := by
  simp [etherIsIpv4, memRead8_ok (b := b) (off := 12) (by omega), memRead8_ok (b := b) (off := 13) (by omega),
    bind, Except.bind, pure, Except.pure]

theorem wordsToBytes_lowNibble (v : Byte) : wordsToBytes (lowNibble v) = v.toNat % 16 * 4 := by
  simp [wordsToBytes, lowNibble]

theorem ip4Body_short {b : Bytes} (h : b.length < 20 ∨ b.length < ihlBytes b) :
    ip4Body b = .error (.raise .truncatedFrame) := by
  rcases Nat.lt_or_ge b.length 20 with h20 | h20
  · simp [ip4Body, requireLen_short h20, bind, Except.bind]
  · have hh : b.length < ihlBytes b := by omega
    have := requireLen_short hh
    simp only [ihlBytes] at this
    simp only [ip4Body, requireLen_fits h20, memRead8_ok (b := b) (off := 0) (by omega), wordsToBytes_lowNibble,
      this, bind, Except.bind]

theorem ip4Body_fits {b : Bytes} (h : 20 ≤ b.length) (hh : ihlBytes b ≤ b.length) : ip4Body b = .ok (ip4RecOf b) := by
  have h1 := requireLen_fits hh
  have h2 := bufSlice_rest hh
  simp only [ihlBytes] at h1 h2
  simp only [ip4Body, requireLen_fits h, memRead8_ok (b := b) (off := 0) (by omega), wordsToBytes_lowNibble, h1, h2,
    memRead8_ok (b := b) (off := 8) (by omega), memRead8_ok (b := b) (off := 9) (by omega),
    bufSlice_ok (b := b) (i := 12) (j := 16) (by omega) (by omega),
    bufSlice_ok (b := b) (i := 16) (j := 20) (by omega) (by omega), ip4RecOf, ihlBytes,
    bind, Except.bind, pure, Except.pure]

theorem tcpBody_short {b : Bytes} (h : b.length < 14) : tcpBody b = .error (.raise .truncatedFrame) := by
  simp [tcpBody, requireLen_short h, bind, Except.bind]

theorem dataOffset_append (x y : Byte) : wordsToBytes ((x ++ y : BitVec 16).extractLsb' 12 4) = x.toNat / 16 * 4 := by
  have hx := x.isLt
  have hy := y.isLt
  have e : (x ++ y : BitVec 16).toNat = x.toNat * 256 + y.toNat := by
    rw [BitVec.toNat_append, ← Nat.shiftLeft_add_eq_or_of_lt hy, Nat.shiftLeft_eq]
  simp only [wordsToBytes, BitVec.extractLsb'_toNat, Nat.shiftRight_eq_div_pow, e]
  omega

theorem getLsbD_append_low (x y : Byte) (i : Nat) (h : i < 8) : (x ++ y : BitVec 16).getLsbD i = y.getLsbD i := by
  exact (BitVec.getLsbD_append (x := x) (y := y) (i := i)).trans (by simp [h])

theorem tcpBody_fits {b : Bytes} (h : 14 ≤ b.length) : tcpBody b = .ok (tcpRecOf b) := by
  simp only [tcpBody, requireLen_fits h, memRead16_ok (b := b) (off := 0) (by omega),
    memRead16_ok (b := b) (off := 2) (by omega), memRead32_ok (b := b) (off := 4) (by omega),
    memRead32_ok (b := b) (off := 8) (by omega), memRead16_ok (b := b) (off := 12) (by omega), dataOffset_append,
    bufSlice_rest (Nat.min_le_right _ b.length), bind, Except.bind, pure, Except.pure]
  simp only [getLsbD_append_low _ _ _ (show (5 : Nat) < 8 by decide), getLsbD_append_low _ _ _ (show (4 : Nat) < 8 by decide),
    getLsbD_append_low _ _ _ (show (3 : Nat) < 8 by decide), getLsbD_append_low _ _ _ (show (2 : Nat) < 8 by decide),
    getLsbD_append_low _ _ _ (show (1 : Nat) < 8 by decide), getLsbD_append_low _ _ _ (show (0 : Nat) < 8 by decide), tcpRecOf]

theorem udpBody_short {b : Bytes} (h : b.length < 8) : udpBody b = .error (.raise .truncatedFrame) := by
  simp [udpBody, requireLen_short h, bind, Except.bind]

theorem udpBody_fits {b : Bytes} (h : 8 ≤ b.length) : udpBody b = .ok (udpRecOf b) := by
  simp [udpBody, requireLen_fits h, memRead16_ok (b := b) (off := 0) (by omega),
    memRead16_ok (b := b) (off := 2) (by omega), memRead16_ok (b := b) (off := 6) (by omega),
    bufSlice_rest h, udpRecOf, bind, Except.bind, pure, Except.pure]

theorem icmpBody_short {b : Bytes} (h : b.length < 4) : icmpBody b = .error (.raise .truncatedFrame) := by
  simp [icmpBody, requireLen_short h, bind, Except.bind]

theorem icmpBody_fits {b : Bytes} (h : 4 ≤ b.length) : icmpBody b = .ok (icmpRecOf b) := by
  simp [icmpBody, requireLen_fits h, memRead8_ok (b := b) (off := 0) (by omega),
    memRead8_ok (b := b) (off := 1) (by omega), memRead16_ok (b := b) (off := 2) (by omega),
    bufSlice_rest h, icmpRecOf, bind, Except.bind, pure, Except.pure]

theorem xptBody_cases (proto : Byte) (b : Bytes) :
    (transportTooShort proto b.length = true ∧ xptBody proto b = .error (.raise .truncatedFrame)) ∨
    (transportTooShort proto b.length = false ∧ xptBody proto b = .ok (variantOf proto b)) := by
  by_cases h1 : proto = 1
  · subst h1
    rcases Nat.lt_or_ge b.length 4 with h | h
    · left; simp [transportTooShort, xptBody, icmpBody_short h, h, bind, Except.bind]
    · right; simp [transportTooShort, xptBody, icmpBody_fits h, variantOf, h, bind, Except.bind, pure, Except.pure]
  by_cases h6 : proto = 6
  · subst h6
    rcases Nat.lt_or_ge b.length 14 with h | h
    · left; simp [transportTooShort, xptBody, tcpBody_short h, h, bind, Except.bind]
    · right; simp [transportTooShort, xptBody, tcpBody_fits h, variantOf, h, bind, Except.bind, pure, Except.pure]
  by_cases h17 : proto = 17
  · subst h17
    rcases Nat.lt_or_ge b.length 8 with h | h
    · left; simp [transportTooShort, xptBody, udpBody_short h, h, bind, Except.bind]
    · right; simp [transportTooShort, xptBody, udpBody_fits h, variantOf, h, bind, Except.bind, pure, Except.pure]
  right
  constructor
  · simp only [transportTooShort, beq_eq_false_iff_ne.mpr h1, beq_eq_false_iff_ne.mpr h6, beq_eq_false_iff_ne.mpr h17]
    rfl
  · rw [xptBody, variantOf, if_neg h1, if_neg h6, if_neg h17, if_neg h1, if_neg h6, if_neg h17]
    rfl

end Sys2Proof.Machine
end

