-- ==== Sys2Proof/Laws/Ops.lean ====
section
/-! SUPPORT. What each shared operation can do, said once: a DU operation, a draw, a sink write, the writer's two
operations; and what each DU operation answers. Later proofs cite these and do not unfold the operations. -/

namespace Sys2Proof.Machine

open Sys2Proof

/-! ### Status bytes (R23): the eight that operations leave -/

@[simp] theorem mkSt_ok : mkSt .ok .notLayered = 0x00 := by decide
@[simp] theorem mkSt_truncatedFrame : mkSt .truncatedFrame .notLayered = 0x01 := by decide
@[simp] theorem mkSt_malformedAddress : mkSt .malformedAddress .notLayered = 0x02 := by decide
@[simp] theorem mkSt_ioError : mkSt .ioError .notLayered = 0x03 := by decide
@[simp] theorem mkSt_closedWriter : mkSt .closedWriter .notLayered = 0x04 := by decide
@[simp] theorem mkSt_ethernet : mkSt .truncatedFrame .ethernet = 0x09 := by decide
@[simp] theorem mkSt_ipv4 : mkSt .truncatedFrame .ipv4 = 0x11 := by decide
@[simp] theorem mkSt_transport : mkSt .truncatedFrame .transport = 0x19 := by decide

/-! ### DU operations -/

/-- If a DU operation answers a next state, its unit exists, its operand fits, and the answer of its body is in the
unit's ST and RES; nothing else changed. -/
theorem runDu_next {s t : State} {f : Du → Except Fault DuAnswer} (h : runDu s f = .next t) :
    ∃ u a, s.dus[s.sel]? = some u ∧ s.cfg.fits u.buf = true ∧ f u = .ok a ∧
      t = s.setDu s.sel { u with st := mkSt a.err a.elayer, res := a.res } := by
  unfold runDu at h
  split at h
  · cases h
  · rename_i u hu
    split at h
    · rename_i hf
      split at h
      · rename_i a ha
        cases h
        exact ⟨u, a, hu, hf, ha, rfl⟩
      · cases h
    · cases h

/-- Where the unit exists, its operand fits and its body answers, a DU operation completes. -/
theorem runDu_completes {s : State} {f : Du → Except Fault DuAnswer} {u : Du} {a : DuAnswer}
    (hu : s.dus[s.sel]? = some u) (hf : s.cfg.fits u.buf = true) (ha : f u = .ok a) :
    runDu s f = .next (s.setDu s.sel { u with st := mkSt a.err a.elayer, res := a.res }) := by
  simp [runDu, hu, hf, ha]

theorem runDu_no_fault {s : State} {f : Du → Except Fault DuAnswer} (hf : ∀ u, ∃ a, f u = .ok a) (e : Fault) :
    runDu s f ≠ .fault e := by
  unfold runDu
  split
  · simp
  · rename_i u hu
    obtain ⟨a, ha⟩ := hf u
    split <;> simp [ha]

@[simp] theorem atLayer_ok {α : Type} (l : Layer) (o : Res) (x : α) (k : α → Except Fault DuAnswer) :
    atLayer l o (.ok x) k = k x := rfl

@[simp] theorem atLayer_raise {α : Type} (l : Layer) (o : Res) (e : Err) (k : α → Except Fault DuAnswer) :
    atLayer l o (.error (.raise e)) k = .ok ⟨e, l, o⟩ := rfl

/-- What each DU operation answers, as a function of its operands and `ETYPE_SWAP` (R38); the CWU's operations are not
DU operations. -/
def duBody (swap : Bool) (i : Instr) (u : Du) : Except Fault DuAnswer :=
  match i with
  | .fmtaddr => atLayer .notLayered Res.empty (fmtBody u.buf) fun f => returnOk { Res.empty with fmt := some f }
  | .deceth => atLayer .notLayered Res.empty (ethBody swap u.buf) fun r => returnOk { Res.empty with eth := some r }
  | .decip4 => atLayer .notLayered Res.empty (ip4Body u.buf) fun r => returnOk { Res.empty with ip4 := some r }
  | .decxpt => atLayer .notLayered Res.empty (xptBody u.proto u.buf) fun v => returnOk (Res.empty.withVariant v)
  | .dectcp => atLayer .notLayered Res.empty (tcpBody u.buf) fun r => returnOk { Res.empty with tcp := some r }
  | .decudp => atLayer .notLayered Res.empty (udpBody u.buf) fun r => returnOk { Res.empty with udp := some r }
  | .decicmp => atLayer .notLayered Res.empty (icmpBody u.buf) fun r => returnOk { Res.empty with icmp := some r }
  | .decpay => returnOk (Res.empty.withText u.buf)
  | .dissect t => dissectChain swap t u.buf
  | .cwopen => returnOk Res.empty
  | .cwwrite => returnOk Res.empty
  | .cwclose => returnOk Res.empty

/-- Every DU operation is its body run on its unit. -/
theorem exec_du {i : Instr} (h : i.unit = .du) (s : State) : exec i s = runDu s (duBody s.cfg.etypeSwap i) := by
  cases i <;> first | rfl | simp [Instr.unit] at h

/-- Where its unit is `u` and its operand fits, a DU operation leaves its body's answer in the unit. -/
theorem exec_leaves {s : State} {u : Du} {i : Instr} {a : DuAnswer} (hi : i.unit = .du) (h : AtDu s u)
    (ha : duBody s.cfg.etypeSwap i u = .ok a) : exec i s = duLeaves s u (mkSt a.err a.elayer) a.res := by
  rw [exec_du hi, runDu_completes h.1 (by simp [Params.fits, h.2]) ha]
  rfl

theorem fmtaddr_answer (swap : Bool) (u : Du) :
    duBody swap .fmtaddr u = .ok (if u.buf.length ≠ 6 then ⟨.malformedAddress, .notLayered, Res.empty⟩
      else ⟨.ok, .notLayered, { Res.empty with fmt := some (fmtAddr u.buf) }⟩) := by
  by_cases h : u.buf.length = 6
  · simp [duBody, fmtBody_six h, h, returnOk]
  · simp [duBody, fmtBody_wrong h, h]

theorem deceth_answer (swap : Bool) (u : Du) :
    duBody swap .deceth u = .ok (if u.buf.length < 14 then ⟨.truncatedFrame, .notLayered, Res.empty⟩
      else ⟨.ok, .notLayered, { Res.empty with eth := some (ethRecOf swap u.buf) }⟩) := by
  rcases Nat.lt_or_ge u.buf.length 14 with h | h
  · simp [duBody, ethBody_short h, h]
  · simp [duBody, ethBody_fits h, Nat.not_lt.mpr h, returnOk]

theorem ipv4TooShort_iff (b : Bytes) : ipv4TooShort b = true ↔ b.length < 20 ∨ b.length < ihlBytes b := by
  simp only [ipv4TooShort, Bool.or_eq_true, decide_eq_true_eq]
  rfl

theorem ip4Body_eq (b : Bytes) :
    ip4Body b = if ipv4TooShort b then .error (.raise .truncatedFrame) else .ok (ip4RecOf b) := by
  by_cases h : ipv4TooShort b = true
  · rw [if_pos h, ip4Body_short ((ipv4TooShort_iff b).mp h)]
  · have := (not_congr (ipv4TooShort_iff b)).mp h
    rw [if_neg h, ip4Body_fits (by omega) (by omega)]

theorem decip4_answer (swap : Bool) (u : Du) :
    duBody swap .decip4 u = .ok (if ipv4TooShort u.buf then ⟨.truncatedFrame, .notLayered, Res.empty⟩
      else ⟨.ok, .notLayered, { Res.empty with ip4 := some (ip4RecOf u.buf) }⟩) := by
  simp only [duBody, ip4Body_eq]
  split <;> simp [returnOk]

theorem xptBody_eq (proto : Byte) (b : Bytes) :
    xptBody proto b =
      if transportTooShort proto b.length then .error (.raise .truncatedFrame) else .ok (variantOf proto b) := by
  rcases xptBody_cases proto b with ⟨h, e⟩ | ⟨h, e⟩ <;> simp [h, e]

theorem decxpt_answer (swap : Bool) (u : Du) :
    duBody swap .decxpt u =
      .ok (if transportTooShort u.proto u.buf.length then ⟨.truncatedFrame, .notLayered, Res.empty⟩
        else ⟨.ok, .notLayered, Res.empty.withVariant (variantOf u.proto u.buf)⟩) := by
  simp only [duBody, xptBody_eq]
  split <;> simp [returnOk]

theorem dectcp_answer (swap : Bool) (u : Du) :
    duBody swap .dectcp u = .ok (if u.buf.length < 14 then ⟨.truncatedFrame, .notLayered, Res.empty⟩
      else ⟨.ok, .notLayered, { Res.empty with tcp := some (tcpRecOf u.buf) }⟩) := by
  rcases Nat.lt_or_ge u.buf.length 14 with h | h
  · simp [duBody, tcpBody_short h, h]
  · simp [duBody, tcpBody_fits h, Nat.not_lt.mpr h, returnOk]

theorem decudp_answer (swap : Bool) (u : Du) :
    duBody swap .decudp u = .ok (if u.buf.length < 8 then ⟨.truncatedFrame, .notLayered, Res.empty⟩
      else ⟨.ok, .notLayered, { Res.empty with udp := some (udpRecOf u.buf) }⟩) := by
  rcases Nat.lt_or_ge u.buf.length 8 with h | h
  · simp [duBody, udpBody_short h, h]
  · simp [duBody, udpBody_fits h, Nat.not_lt.mpr h, returnOk]

theorem decicmp_answer (swap : Bool) (u : Du) :
    duBody swap .decicmp u = .ok (if u.buf.length < 4 then ⟨.truncatedFrame, .notLayered, Res.empty⟩
      else ⟨.ok, .notLayered, { Res.empty with icmp := some (icmpRecOf u.buf) }⟩) := by
  rcases Nat.lt_or_ge u.buf.length 4 with h | h
  · simp [duBody, icmpBody_short h, h]
  · simp [duBody, icmpBody_fits h, Nat.not_lt.mpr h, returnOk]

theorem decpay_answer (swap : Bool) (u : Du) :
    duBody swap .decpay u = .ok ⟨.ok, .notLayered, Res.empty.withText u.buf⟩ := rfl

/-- The bytes at offsets 12 and 13 say IPv4 (R93). -/
def saysIpv4 (b : Bytes) : Bool := b.getD 12 0 == 0x08 && b.getD 13 0 == 0x00

/-- RES after layer 1, and after layer 2 (R195). -/
def chainRes1 (swap : Bool) (b : Bytes) : Res :=
  { Res.chainStart with eth := some (ethRecOf swap b), ethValid := some true }

def chainRes2 (swap : Bool) (b : Bytes) : Res :=
  { chainRes1 swap b with ip4 := some (ip4RecOf (b.drop 14)), ip4Valid := some true }

/-- The IPv4 payload of a frame, and the variant made of it. -/
def chainP2 (b : Bytes) : Bytes := (ip4RecOf (b.drop 14)).payload

def chainVariant (b : Bytes) : Variant := variantOf (ip4RecOf (b.drop 14)).protocol (chainP2 b)

/-- What the chain answers, layer by layer (R195, R199). -/
theorem dissectChain_eq (swap t : Bool) (b : Bytes) :
    dissectChain swap t b = .ok (
      if b.length < 14 then ⟨.truncatedFrame, .ethernet, Res.chainStart⟩
      else if saysIpv4 b = false then ⟨.ok, .notLayered, chainRes1 swap b⟩
      else if ipv4TooShort (b.drop 14) then ⟨.truncatedFrame, .ipv4, chainRes1 swap b⟩
      else if transportTooShort (ip4RecOf (b.drop 14)).protocol (chainP2 b).length then
        ⟨.truncatedFrame, .transport, chainRes2 swap b⟩
      else ⟨.ok, .notLayered, textLayer t (chainVariant b) ((chainRes2 swap b).withVariant (chainVariant b))⟩) := by
  rcases Nat.lt_or_ge b.length 14 with h | h
  · simp [dissectChain, ethBody_short h, h]
  have hp : (ethRecOf swap b).payload = b.drop 14 := rfl
  simp only [dissectChain, ethBody_fits h, etherIsIpv4_fits h, atLayer_ok, Nat.not_lt.mpr h, if_false, hp]
  cases hv : saysIpv4 b
  · have hv' : (b.getD 12 0 == 0x08 && b.getD 13 0 == 0x00) = false := hv
    rw [hv']
    rfl
  · have hv' : (b.getD 12 0 == 0x08 && b.getD 13 0 == 0x00) = true := hv
    rw [hv']
    simp only [if_true, ip4Body_eq, Bool.true_eq_false, if_false]
    cases hi : ipv4TooShort (b.drop 14)
    · simp only [if_false, atLayer_ok, Bool.false_eq_true, xptBody_eq]
      have hq : (ip4RecOf (b.drop 14)).payload = chainP2 b := rfl
      rw [hq]
      cases hx : transportTooShort (ip4RecOf (b.drop 14)).protocol (chainP2 b).length
      · rfl
      · rfl
    · rfl

/-- No DU operation reads outside its operand (R51). -/
theorem duBody_answers (swap : Bool) (i : Instr) (u : Du) : ∃ a, duBody swap i u = .ok a := by
  cases i
  case dissect t => exact ⟨_, dissectChain_eq swap t u.buf⟩
  case fmtaddr => exact ⟨_, fmtaddr_answer swap u⟩
  case deceth => exact ⟨_, deceth_answer swap u⟩
  case decip4 => exact ⟨_, decip4_answer swap u⟩
  case decxpt => exact ⟨_, decxpt_answer swap u⟩
  case dectcp => exact ⟨_, dectcp_answer swap u⟩
  case decudp => exact ⟨_, decudp_answer swap u⟩
  case decicmp => exact ⟨_, decicmp_answer swap u⟩
  case decpay => exact ⟨_, rfl⟩
  case cwopen => exact ⟨_, rfl⟩
  case cwwrite => exact ⟨_, rfl⟩
  case cwclose => exact ⟨_, rfl⟩

/-! ### Draws and sink writes -/

/-- A draw of the time source changes only the record of draws made. -/
theorem drawTime_state (s : State) : ∃ e, (drawTime s).2 = { s with env := e } := by
  unfold drawTime
  split <;> exact ⟨_, rfl⟩

/-- A draw of the sink changes only the record of draws made. -/
theorem drawAnswer_state (s : State) : ∃ e, (drawAnswer s).2 = { s with env := e } := by
  unfold drawAnswer
  split <;> exact ⟨_, rfl⟩

theorem drawTime_cons {s : State} {d : TimeDraw} {ds : List TimeDraw} (h : s.env.times = d :: ds) :
    drawTime s = (d, { s with env := { s.env with times := ds, timesUsed := s.env.timesUsed + 1 } }) := by
  simp [drawTime, h]

theorem drawAnswer_cons {s : State} {a : SinkAnswer} {as : List SinkAnswer} (h : s.env.answers = a :: as) :
    drawAnswer s = (a, { s with env := { s.env with answers := as, answersUsed := s.env.answersUsed + 1 } }) := by
  simp [drawAnswer, h]

/-- A failing write keeps a proper part of what it was given, cut off at the end. -/
theorem appended_fail {k : Nat} {bs : Bytes} (h : bs ≠ []) :
    appended (.fail k) bs <+: bs ∧ (appended (.fail k) bs).length < bs.length := by
  have hl : 0 < bs.length := List.length_pos_iff.mpr h
  refine ⟨List.take_prefix _ _, ?_⟩
  simp only [appended, keptOf, List.length_take]
  omega

/-- `SinkWrite` (R58): taken whole, or refused with a proper part kept; only SINK and the record of draws change. -/
theorem sinkWrite_cases (bs : Bytes) (s : State) :
    (∃ e, sinkWrite bs s = (true, { s with sink := s.sink ++ bs, env := e })) ∨
    (∃ e p, bs ≠ [] ∧ p <+: bs ∧ p.length < bs.length ∧
      sinkWrite bs s = (false, { s with sink := s.sink ++ p, env := e })) := by
  cases hb : bs with
  | nil => left; exact ⟨s.env, by simp [sinkWrite]⟩
  | cons x xs =>
    obtain ⟨e, he⟩ := drawAnswer_state s
    have hne : x :: xs ≠ [] := by simp
    cases ha : (drawAnswer s).1 with
    | ok => left; exact ⟨e, by simp [sinkWrite, ha, he, SinkAnswer.isOk, appended]⟩
    | fail k =>
      right
      exact ⟨e, appended (.fail k) (x :: xs), hne, (appended_fail hne).1, (appended_fail hne).2,
        by simp [sinkWrite, ha, he, SinkAnswer.isOk]⟩

theorem sinkWrite_ok {bs : Bytes} {s : State} {as : List SinkAnswer} (hb : bs ≠ []) (h : s.env.answers = .ok :: as) :
    sinkWrite bs s = (true, { s with
      sink := s.sink ++ bs, env := { s.env with answers := as, answersUsed := s.env.answersUsed + 1 } }) := by
  simp [sinkWrite, hb, drawAnswer_cons h, SinkAnswer.isOk, appended]

theorem sinkWrite_fail {bs : Bytes} {s : State} {k : Nat} {as : List SinkAnswer} (hb : bs ≠ [])
    (h : s.env.answers = .fail k :: as) :
    sinkWrite bs s = (false, { s with
      sink := s.sink ++ bs.take (min k (bs.length - 1))
      env := { s.env with answers := as, answersUsed := s.env.answersUsed + 1 } }) := by
  simp [sinkWrite, hb, drawAnswer_cons h, SinkAnswer.isOk, appended, keptOf]

theorem sinkWrite_nil (s : State) : sinkWrite [] s = (true, s) := by simp [sinkWrite]

/-! ### The capture writer -/

@[simp] theorem u32bytes_length (big : Bool) (v : BitVec 32) : (u32bytes big v).length = 4 := by
  cases big <;> rfl

@[simp] theorem u16bytes_length (big : Bool) (v : BitVec 16) : (u16bytes big v).length = 2 := by
  cases big <;> rfl

/-- "exactly 24 bytes by CWOPEN" (R57). -/
@[simp] theorem globalHeader_length (big : Bool) (l : BitVec 32) : (globalHeader big l).length = 24 := by
  simp [globalHeader, i32bytes]

/-- "exactly 16 bytes" before each frame (R57). -/
@[simp] theorem recordHeader_length (big : Bool) (d : TimeDraw) (n : Nat) : (recordHeader big d n).length = 16 := by
  simp [recordHeader]

theorem globalHeader_ne_nil (big : Bool) (l : BitVec 32) : globalHeader big l ≠ [] := by
  intro h
  have := congrArg List.length h
  simp at this

theorem recordHeader_ne_nil (big : Bool) (d : TimeDraw) (n : Nat) : recordHeader big d n ≠ [] := by
  intro h
  have := congrArg List.length h
  simp at this

/-- CWOPEN from CLOSED (R210, R213). -/
theorem openWriter_cases (s : State) :
    (∃ e, openWriter s = { s with
      sink := s.offered ++ globalHeader s.cfg.capBigEndian s.cwu.ltype, env := e
      cwu := { s.cwu with st := mkSt .ok .notLayered, cws := .opened } }) ∨
    (∃ e p, p <+: globalHeader s.cfg.capBigEndian s.cwu.ltype ∧ p.length < 24 ∧ openWriter s = { s with
      sink := s.offered ++ p, env := e
      cwu := { s.cwu with st := mkSt .ioError .notLayered, cws := .closed } }) := by
  rcases sinkWrite_cases (globalHeader s.cfg.capBigEndian s.cwu.ltype) { s with sink := s.offered } with
    ⟨e, h⟩ | ⟨e, p, _, hp, hl, h⟩
  · left; exact ⟨e, by simp [openWriter, h, State.endCwu]⟩
  · right
    exact ⟨e, p, hp, by simpa using hl, by simp [openWriter, h, raiseCwu, State.endCwu]⟩

/-- CWWRITE while OPEN (R214, R215, R221): the whole record; or a record cut short, before its last byte. -/
theorem writeRecord_cases (s : State) :
    (∃ e d, writeRecord s = { s with
      sink := s.sink ++ recordBytes s.cfg.capBigEndian ⟨d, s.cwu.buf⟩, env := e
      cwu := { s.cwu with st := mkSt .ok .notLayered, cws := .opened } }) ∨
    (∃ e d p, p <+: recordBytes s.cfg.capBigEndian ⟨d, s.cwu.buf⟩ ∧
      p.length < (recordBytes s.cfg.capBigEndian ⟨d, s.cwu.buf⟩).length ∧ writeRecord s = { s with
      sink := s.sink ++ p, env := e
      cwu := { s.cwu with st := mkSt .ioError .notLayered, cws := .openFailed } }) := by
  obtain ⟨e0, h0⟩ := drawTime_state s
  generalize hd : (drawTime s).1 = d
  rcases sinkWrite_cases (recordHeader s.cfg.capBigEndian d s.cwu.buf.length) { s with env := e0 } with
    ⟨e1, h1⟩ | ⟨e1, p, _, hp, hl, h1⟩
  · rcases sinkWrite_cases s.cwu.buf
      { s with sink := s.sink ++ recordHeader s.cfg.capBigEndian d s.cwu.buf.length, env := e1 } with
      ⟨e2, h2⟩ | ⟨e2, p, _, hp, hl, h2⟩
    · left
      exact ⟨e2, d, by simp [writeRecord, h0, hd, h1, h2, State.endCwu, recordBytes]⟩
    · right
      refine ⟨e2, d, recordHeader s.cfg.capBigEndian d s.cwu.buf.length ++ p, ?_, ?_, ?_⟩
      · exact (List.prefix_append_right_inj _).mpr hp
      · simp [recordBytes]; omega
      · simp [writeRecord, h0, hd, h1, h2, raiseCwu, State.endCwu]
  · right
    refine ⟨e1, d, p, hp.trans (List.prefix_append _ _), ?_, ?_⟩
    · simp [recordBytes] at hl ⊢; omega
    · simp [writeRecord, h0, hd, h1, raiseCwu, State.endCwu]

/-! ### Requests -/

/-- A step on a request runs the operation its byte decodes to at its port. -/
theorem step_issue {s : State} {p : Port} {c : Byte} {rest : List HostEvent} {i : Instr}
    (h : s.inbox = .issue p c :: rest) (hd : decodeAt p c = .ok i) :
    step s = exec i ({ s with inbox := rest }.present p c) := by
  simp [step, fetch, h, hd]

theorem step_access {s : State} {a : Access} {rest : List HostEvent} (h : s.inbox = .access a :: rest) :
    step s = hostAccess a { s with inbox := rest } := by
  simp [step, fetch, h]

end Sys2Proof.Machine
end

