-- ==== Sys2Proof/Laws/PerInstr.lean ====
section
/-! SUPPORT. Made per instruction: each operation's command byte stands in one row of R81's table, its own. -/

namespace Sys2Proof.Laws.EncodedInRow

open Sys2Proof

/-- The command byte of `i` has `Z = 000`, selects a row of R81's table whose operation it is, and selects no row with
another pattern ("The rows are disjoint", R81). -/
def Statement (i : Instr) : Prop :=
  encode i &&& 0xE0 = 0 ∧
    ∃ r ∈ opRows, r.selects (encode i) = true ∧ r.instr (encode i) = i ∧
      ∀ q ∈ opRows, q.selects (encode i) = true → q.pattern = r.pattern

theorem fmtaddr : Statement .fmtaddr := by unfold Statement; decide
theorem deceth : Statement .deceth := by unfold Statement; decide
theorem decip4 : Statement .decip4 := by unfold Statement; decide
theorem decxpt : Statement .decxpt := by unfold Statement; decide
theorem dectcp : Statement .dectcp := by unfold Statement; decide
theorem decudp : Statement .decudp := by unfold Statement; decide
theorem decicmp : Statement .decicmp := by unfold Statement; decide
theorem decpay : Statement .decpay := by unfold Statement; decide
theorem dissect (t : Bool) : Statement (.dissect t) := by unfold Statement; cases t <;> decide
theorem cwopen : Statement .cwopen := by unfold Statement; decide
theorem cwwrite : Statement .cwwrite := by unfold Statement; decide
theorem cwclose : Statement .cwclose := by unfold Statement; decide

end Sys2Proof.Laws.EncodedInRow
end

