-- ==== Sys2Proof/Laws/Steps.lean ====
section
/-! SUPPORT. What an operation of a unit, an access of the host and a step can do, said once each: later proofs cite
these and do not unfold `step`, `fetch` or `hostAccess`. -/

namespace Sys2Proof.Machine

open Sys2Proof

/-- Everything a DU operation that answers a next state can have done. -/
theorem exec_du_next {i : Instr} {s t : State} (hi : i.unit = .du) (h : exec i s = .next t) :
    ∃ u a, s.dus[s.sel]? = some u ∧ s.cfg.fits u.buf = true ∧ duBody s.cfg.etypeSwap i u = .ok a ∧
      t = s.setDu s.sel { u with st := mkSt a.err a.elayer, res := a.res } := by
  rw [exec_du hi] at h
  exact runDu_next h

/-- A DU operation looks at BUF and PROTO of its unit only. -/
theorem duBody_congr (swap : Bool) (i : Instr) {u w : Du} (hb : u.buf = w.buf) (hp : u.proto = w.proto) :
    duBody swap i u = duBody swap i w := by
  cases i <;> simp [duBody, hb, hp]

/-- The unit just replaced is the one read back. -/
theorem setDu_get {s : State} {k : Nat} {u w : Du} (h : s.dus[k]? = some u) : (s.setDu k w).dus[k]? = some w := by
  obtain ⟨hk, _⟩ := List.getElem?_eq_some_iff.mp h
  simp [State.setDu, hk]

/-- Everything CWOPEN that answers a next state can have done. -/
theorem cwopen_next {s t : State} (h : exec .cwopen s = .next t) : s.cwu.cws = .closed ∧ t = openWriter s := by
  simp only [exec, execCwopen] at h
  split at h <;> cases h
  exact ⟨by assumption, rfl⟩

/-- Everything CWWRITE that answers a next state can have done. -/
theorem cwwrite_next {s t : State} (h : exec .cwwrite s = .next t) :
    s.cwu.buf.length ≤ s.cfg.maxFrameLen ∧
      ((s.cwu.cws = .closed ∧ t = raiseCwu s .closedWriter .closed) ∨ (s.cwu.cws = .opened ∧ t = writeRecord s)) := by
  simp only [exec, execCwwrite] at h
  split at h
  · rename_i hf
    refine ⟨of_decide_eq_true hf, ?_⟩
    split at h <;> cases h
    · exact .inl ⟨by assumption, rfl⟩
    · exact .inr ⟨by assumption, rfl⟩
  · cases h

/-- Everything CWCLOSE can have done. -/
theorem cwclose_next {s t : State} (h : exec .cwclose s = .next t) : t = s.endCwu .ok .closed := by
  cases h
  rfl

theorem withDu_next {s t : State} {k : Nat} {f : Du → Host.Outcome State Fault Refusal} (h : withDu s k f = .next t) :
    ∃ u, s.dus[k]? = some u ∧ f u = .next t := by
  unfold withDu at h
  split at h
  · cases h
  · exact ⟨_, by assumption, h⟩

theorem readWritten_next {s t : State} {r : OperandReg} {w : Bool} {v : HostVal} (h : readWritten s r w v = .next t) :
    t = s.deliver v := by
  unfold readWritten at h
  split at h <;> cases h
  rfl

/-- Everything an access of the host that answers a next state can have done. -/
theorem hostAccess_next {a : Access} {s t : State} (h : hostAccess a s = .next t) :
    (∃ k u b, s.dus[k]? = some u ∧ s.cfg.fits b = true ∧
      t = s.setDu k { u with buf := b, written := { u.written with buf := true } }) ∨
    (∃ b, s.cfg.fits b = true ∧
      t = { s with cwu := { s.cwu with buf := b, written := { s.cwu.written with buf := true } } }) ∨
    (∃ k u v, s.dus[k]? = some u ∧
      t = s.setDu k { u with proto := v, written := { u.written with proto := true } }) ∨
    (∃ l, t = { s with cwu := { s.cwu with ltype := l, written := { s.cwu.written with ltype := true } } }) ∨
    (∃ c, a = .offerSink c ∧ t = { s with offered := c }) ∨
    (∃ v, t = s.deliver v) ∨ t = s.resetBlock := by
  cases a with
  | loadBuf p b =>
    simp only [hostAccess, loadBuf] at h
    split at h
    · rename_i hf
      cases p with
      | du k =>
        obtain ⟨u, hu, h⟩ := withDu_next h
        cases h
        exact .inl ⟨k, u, b, hu, hf, rfl⟩
      | cwu =>
        cases h
        exact .inr (.inl ⟨b, hf, rfl⟩)
    · cases h
  | loadProto k v =>
    obtain ⟨u, hu, h⟩ := withDu_next h
    cases h
    exact .inr (.inr (.inl ⟨k, u, v, hu, rfl⟩))
  | loadLtype l =>
    cases h
    exact .inr (.inr (.inr (.inl ⟨l, rfl⟩)))
  | offerSink c =>
    cases h
    exact .inr (.inr (.inr (.inr (.inl ⟨c, rfl, rfl⟩))))
  | readSt p =>
    refine .inr (.inr (.inr (.inr (.inr (.inl ?_)))))
    cases p with
    | du k =>
      obtain ⟨u, hu, h⟩ := withDu_next h
      cases h
      exact ⟨_, rfl⟩
    | cwu =>
      cases h
      exact ⟨_, rfl⟩
  | readCws =>
    cases h
    exact .inr (.inr (.inr (.inr (.inr (.inl ⟨_, rfl⟩)))))
  | readRes k f =>
    obtain ⟨u, hu, h⟩ := withDu_next h
    split at h <;> cases h
    exact .inr (.inr (.inr (.inr (.inr (.inl ⟨_, rfl⟩)))))
  | readOperand p r =>
    refine .inr (.inr (.inr (.inr (.inr (.inl ?_)))))
    cases p with
    | du k =>
      obtain ⟨u, hu, h⟩ := withDu_next h
      cases r <;> first | exact ⟨_, readWritten_next h⟩ | cases h
    | cwu => cases r <;> first | exact ⟨_, readWritten_next h⟩ | cases h
  | reset =>
    cases h
    exact .inr (.inr (.inr (.inr (.inr (.inr rfl)))))

/-- Everything a step that answers a next state can have done. -/
theorem step_next {s t : State} (h : step s = .next t) :
    (s.inbox = [] ∧ t = s) ∨
    (∃ a rest, s.inbox = .access a :: rest ∧ hostAccess a { s with inbox := rest } = .next t) ∨
    (∃ p c rest i, s.inbox = .issue p c :: rest ∧ decodeAt p c = .ok i ∧
      exec i ({ s with inbox := rest }.present p c) = .next t) := by
  unfold step fetch at h
  split at h
  · rename_i i u hf
    split at hf
    · cases hf
    · cases hf
    · split at hf <;> cases hf
      exact .inr (.inr ⟨_, _, _, _, by assumption, by assumption, h⟩)
  · rename_i o hf
    split at hf
    · cases hf
      cases h
      exact .inl ⟨by assumption, rfl⟩
    · cases hf
      exact .inr (.inl ⟨_, _, by assumption, h⟩)
    · split at hf <;> cases hf <;> cases h

/-! ### The two byte sequences keep their form (log entry 12) -/

/-- Bytes are only ever appended to SINK: what a sink write leaves begins with what was there (R52). -/
theorem sinkWrite_prefix (bs : Bytes) (s : State) : s.sink <+: (sinkWrite bs s).2.sink := by
  rcases sinkWrite_cases bs s with ⟨e, h⟩ | ⟨e, p, _, _, _, h⟩ <;> rw [h] <;> exact List.prefix_append _ _

/-- Reset's byte sequences are empty: nothing is listed. -/
theorem reset_sequences : State.reset.sink = [] ∧ State.reset.cwu.buf = [] ∧ ∀ u ∈ State.reset.dus, u.buf = [] := by
  decide

end Sys2Proof.Machine
end

