-- ==== Sys2Proof/Tests/Slice0.lean ====
section
/-! SUPPORT. Tests on fixed values: the well-formedness checks, the words of the encoding, at most two steps for each
operation with results from spec/95_test_vectors.md or counted by hand from the rules, and for every statement with
hypotheses a concrete state and operands that meet them. -/

namespace Sys2Proof.Tests

open Sys2Proof Sys2Proof.Machine

/-! ### Helpers -/

/-- A DU with these operands, and the block after reset with that DU. -/
def unit (b : Bytes) (proto : Byte) : Du := { Du.reset with buf := b, proto := proto }

def block (b : Bytes) (proto : Byte) : State := { State.reset with dus := [unit b proto] }

/-- The block with its CWU in this state, this frame in BUF, and this time and these answers still to be drawn. -/
def writer (c : Cws) (frame : Bytes) (answers : List SinkAnswer) : State :=
  { State.reset with
    cwu := { Cwu.reset with buf := frame, ltype := 1, cws := c }
    env := ⟨[⟨1700000000, 123456⟩], 0, answers, 0⟩ }

/-- The block after reset with one event to come. -/
def asked (e : HostEvent) : State := { State.reset with inbox := [e] }

/-- The state an outcome goes on with. -/
def nextOf : Host.Outcome State Fault Refusal → Option State
  | .next t => some t
  | _ => none

/-- What an operation leaves in the DU: its ST, and a field of its RES. -/
def left (i : Instr) (b : Bytes) (proto : Byte) (f : ResField) : Option (Byte × Option HostVal) :=
  (nextOf (exec i (block b proto))).bind fun t => t.dus.head?.map fun u => (u.st, u.res.get f)

/-- What an operation leaves in the CWU and the sink: ST, CWS, SINK. -/
def wrote (i : Instr) (s : State) : Option (Byte × Cws × Bytes) :=
  (nextOf (exec i s)).map fun t => (t.cwu.st, t.cwu.cws, t.sink)

def zeros (n : Nat) : Bytes := List.replicate n 0

/-- A 34-byte Ethernet and IPv4 header (IHL 5) for this protocol number, and what follows it. -/
def ipFrame (proto : Byte) (tail : Bytes) : Bytes :=
  zeros 12 ++ [0x08, 0x00, 0x45] ++ zeros 8 ++ [proto] ++ zeros 10 ++ tail

theorem block_at {b : Bytes} {proto : Byte} (h : b.length ≤ 0xffffffff) : AtDu (block b proto) (unit b proto) := ⟨rfl, h⟩

/-! ### Well-formedness: a term that each check refuses, and one it accepts -/

theorem test_wf_refuses_cwopen_at_du : Instr.wf (.du 0) .cwopen = false := by decide
theorem test_wf_refuses_dissect_at_cwu : Instr.wf .cwu (.dissect true) = false := by decide
theorem test_wf_accepts_home : Instr.wf (.du 3) .decpay = true ∧ Instr.wf .cwu .cwclose = true := by decide
theorem test_wf_refuses_frame_len_zero : Params.wf ⟨false, false, 0⟩ = false := by decide
theorem test_wf_refuses_frame_len_2_32 : Params.wf ⟨false, false, 0x100000000⟩ = false := by decide
theorem test_wf_accepts_spec_params : Params.spec.wf = true := by decide
theorem test_wf_refuses_long_operand : Params.fits ⟨false, false, 2⟩ [1, 2, 3] = false := by decide
theorem test_wf_refuses_usec : TimeDraw.wf ⟨0, 1000000⟩ = false := by decide
theorem test_wf_refuses_whole_kept : SinkAnswer.wf 16 (.fail 16) = false := by decide
theorem test_wf_refuses_status : duStLegal 0x0A = false ∧ cwuStLegal 0x01 = false := by decide

/-! ### Decoding: words written out from R81, `Z` `T` `OP` -/

theorem test_decode_fmtaddr : decode 0b00000001 = some .fmtaddr := by decide
theorem test_decode_deceth : decode 0b00000010 = some .deceth := by decide
theorem test_decode_decip4 : decode 0b00000011 = some .decip4 := by decide
theorem test_decode_decxpt : decode 0b00000100 = some .decxpt := by decide
theorem test_decode_dectcp : decode 0b00000101 = some .dectcp := by decide
theorem test_decode_decudp : decode 0b00000110 = some .decudp := by decide
theorem test_decode_decicmp : decode 0b00000111 = some .decicmp := by decide
theorem test_decode_decpay : decode 0b00001000 = some .decpay := by decide
theorem test_decode_dissect : decode 0b00001001 = some (.dissect false) := by decide
theorem test_decode_dissect_text : decode 0b00011001 = some (.dissect true) := by decide
theorem test_decode_cwopen : decode 0b00001010 = some .cwopen := by decide
theorem test_decode_cwwrite : decode 0b00001011 = some .cwwrite := by decide
theorem test_decode_cwclose : decode 0b00001100 = some .cwclose := by decide

/-- `T = 1` with another operation, `Z = 001`, and OP 0 and 0xF are reserved (R82). -/
theorem test_decode_reserved :
    [0b00010001, 0b00101001, 0b00000000, 0b00001111].map decode = [none, none, none, none] := by decide

theorem test_decode_wrong_port :
    decodeAt .cwu 0b00000001 = .error .wrongPort ∧ decodeAt (.du 0) 0b00001010 = .error .wrongPort := by decide

theorem test_table_words : decodeTableWord 8 0x09 = some (.dissect false) ∧ decodeTableWord 8 0x0C = some .cwclose ∧
    decodeTableWord 16 0x01 = none := by decide

/-- A word placed for the fetch is what the very next step runs. -/
theorem test_fetch_word : (nextOf (step (State.reset.withFetchWord 8 0x0C))).map (·.cwu.cmd) = some 0x0C ∧
    (nextOf (step (State.reset.withFetchWord 8 0x01))).map (fun t => t.dus.map (·.st)) = some [0x02] := by decide

/-! ### Operations -/

/-- Section 2.1, row 4: `0A:9F:A0:09:B1:C2`. -/
theorem test_fmtaddr : left .fmtaddr [0x0a, 0x9f, 0xa0, 0x09, 0xb1, 0xc2] 0 .fmt =
    some (0x00, some (.bytes [0x30, 0x41, 0x3a, 0x39, 0x46, 0x3a, 0x41, 0x30, 0x3a, 0x30, 0x39, 0x3a, 0x42, 0x31, 0x3a,
      0x43, 0x32])) := by decide

theorem test_fmtaddr_seven : left .fmtaddr [0x00, 0x11, 0x22, 0x33, 0x44, 0x55, 0x66] 0 .fmt = some (0x02, none) := by
  decide

/-- Section 2.2, row 8: `86 dd aa`. -/
theorem test_deceth : left .deceth [0, 0, 0, 0, 0, 1, 0, 0, 0, 0, 0, 2, 0x86, 0xdd, 0xaa] 0 .ethEthertype =
    some (0x00, some (.num 0x86dd)) := by decide

theorem test_deceth_thirteen : left .deceth (zeros 13) 0 .ethPayload = some (0x01, none) := by decide

/-- Section 2.3: IHL 3, the payload starts inside the fixed header. -/
theorem test_decip4_ihl3 : left .decip4 [0x43, 0, 0, 0x28, 0, 1, 0, 0, 0x40, 6, 0xf7, 0x60, 0xc0, 0xa8, 1, 0x0a, 0xc0,
    0xa8, 1, 0x14] 0 .ip4Payload = some (0x00, some (.bytes [0xc0, 0xa8, 1, 0x0a, 0xc0, 0xa8, 1, 0x14])) := by decide

/-- Section 2.3: `100.9.10.99`, no leading zeros. -/
theorem test_decip4_dotted : left .decip4 [0x45, 0, 0, 0x14, 0, 0, 0, 0, 1, 1, 0, 0, 0x64, 9, 0x0a, 0x63, 1, 0, 0xc8, 7]
    0 .ip4SrcAddr =
      some (0x00, some (.bytes [0x31, 0x30, 0x30, 0x2e, 0x39, 0x2e, 0x31, 0x30, 0x2e, 0x39, 0x39])) := by decide

/-- Section 2.4: protocol 17 with eight bytes is UDP, tag 3. -/
theorem test_decxpt_udp : left .decxpt [0xd4, 0x31, 0, 0x35, 0, 0x0b, 0x1c, 0x2e] 17 .xpt = some (0x00, some (.num 3)) := by
  decide

/-- S7: protocol 47 with an empty buffer is UNKNOWN, payload empty. -/
theorem test_decxpt_unknown : left .decxpt [] 47 .unkPayload = some (0x00, some (.bytes [])) := by decide

/-- Section 2.4: word `f0 10`, then 47 bytes: one byte of payload. -/
theorem test_dectcp_offset : left .dectcp (zeros 12 ++ [0xf0, 0x10] ++ List.replicate 47 0xaa) 0 .tcpPayload =
    some (0x00, some (.bytes [0xaa])) := by decide

theorem test_dectcp_sequence : left .dectcp [0x30, 0x39, 0, 0x50, 1, 2, 3, 4, 0, 0, 0, 0, 0x50, 2] 0 .tcpSequence =
    some (0x00, some (.num 0x01020304)) := by decide

/-- Section 2.4: `size` is bytes 6 and 7. -/
theorem test_decudp_size : left .decudp [0xd4, 0x31, 0, 0x35, 0, 0x0b, 0x1c, 0x2e] 0 .udpSize =
    some (0x00, some (.num 7214)) := by decide

theorem test_decudp_seven : left .decudp [0xd4, 0x31, 0, 0x35, 0, 0x0b, 0x1c] 0 .udpSize = some (0x01, none) := by decide

theorem test_decicmp : left .decicmp [3, 0x0d, 0xff, 0xfe, 0] 0 .icmpChecksum = some (0x00, some (.num 0xfffe)) := by
  decide

theorem test_decicmp_three : left .decicmp [8, 0, 0x21] 0 .icmpType = some (0x01, none) := by decide

/-- U+20AC, whose UTF-8 form is `e2 82 ac`. -/
theorem test_decpay_text : left .decpay [0xe2, 0x82, 0xac] 0 .txtChars = some (0x00, some (.chars [0x20ac])) := by decide

/-- The surrogate pattern `ed a0 80` is not well formed (R186). -/
theorem test_decpay_binary : left .decpay [0xed, 0xa0, 0x80] 0 .txtTag = some (0x00, some (.num 2)) := by decide

/-- Frame E's ethertype, ARP: success, no IPv4. -/
theorem test_dissect_arp : left (.dissect true) (zeros 12 ++ [0x08, 0x06, 0x45]) 0 .ip4Valid =
    some (0x00, some (.num 0)) := by decide

/-- A frame cut inside the TCP header: `elayer` 3. -/
theorem test_dissect_cut : left (.dissect false) (ipFrame 6 (zeros 13)) 0 .ip4Protocol = some (0x19, some (.num 6)) := by
  decide

/-- S9, `CWOPEN 1`. -/
theorem test_cwopen : wrote .cwopen (writer .closed [] [.ok]) =
    some (0x00, .opened, [0xd4, 0xc3, 0xb2, 0xa1, 2, 0, 4, 0, 0, 0, 0, 0, 0, 0, 0, 0, 0xff, 0xff, 0, 0, 1, 0, 0, 0]) := by
  decide

theorem test_cwopen_fails : wrote .cwopen (writer .closed [] [.fail 2]) = some (0x03, .closed, [0xd4, 0xc3]) := by decide

/-- R214's example. -/
theorem test_cwwrite : wrote .cwwrite (writer .opened [0xde, 0xad, 0xbe, 0xef] [.ok, .ok]) =
    some (0x00, .opened, [0x00, 0xf1, 0x53, 0x65, 0x40, 0xe2, 0x01, 0x00, 4, 0, 0, 0, 4, 0, 0, 0, 0xde, 0xad, 0xbe,
      0xef]) := by decide

/-- R221: the frame's write fails after one byte. -/
theorem test_cwwrite_fails : (wrote .cwwrite (writer .opened [0xde, 0xad] [.ok, .fail 1])).map
    (fun x => (x.1, x.2.1, x.2.2.drop 16)) = some (0x03, .openFailed, [0xde]) := by decide

theorem test_cwclose : wrote .cwclose (writer .openFailed [] []) = some (0x00, .closed, []) := by decide

/-! ### Hypotheses that something meets -/

theorem wit_StepRunsTheDecodedOperation :
    ((asked (.issue .cwu 0x0A)).inbox = .issue .cwu 0x0A :: [] ∧ decodeAt .cwu 0x0A = .ok .cwopen) ∧
    ((asked (.issue (.du 0) 0x19)).inbox = .issue (.du 0) 0x19 :: [] ∧ decodeAt (.du 0) 0x19 = .ok (.dissect true) ∧
      (asked (.issue (.du 0) 0x19)).dus[0]? = some Du.reset) ∧
    ((asked (.issue (.du 1) 0x01)).inbox = .issue (.du 1) 0x01 :: [] ∧ decodeAt (.du 1) 0x01 = .ok .fmtaddr ∧
      (asked (.issue (.du 1) 0x01)).dus[1]? = none) := by
  refine ⟨⟨rfl, rfl⟩, ⟨rfl, rfl, rfl⟩, rfl, rfl, rfl⟩

theorem wit_ReservedCommandsAreRefused (c : Byte) (p : Port) : (asked (.issue p c)).inbox = .issue p c :: [] ∧
    ((0x0D#8).toNat = 0x0D ∧ (0x18#8).toNat = 0x18 ∧ (0x1A#8).toNat = 0x1A ∧ (0x19#8).toNat = 0x19) := ⟨rfl, by decide⟩

/-- A block whose MAX_FRAME_LEN is 2, with three bytes in each BUF. -/
def crowded : State :=
  { State.reset with
    cfg := ⟨false, false, 2⟩
    dus := [unit [1, 2, 3] 0]
    cwu := { Cwu.reset with buf := [1, 2, 3] } }

theorem wit_LongRequestsAreRefused : Instr.decpay.unit = .du ∧ crowded.dus[crowded.sel]? = some (unit [1, 2, 3] 0) ∧
    crowded.cfg.maxFrameLen < (unit [1, 2, 3] 0).buf.length ∧ crowded.cfg.maxFrameLen < crowded.cwu.buf.length := by
  decide

theorem wit_FmtaddrFormatsAddresses : AtDu (block [1, 2, 3, 4, 5, 6] 0) (unit [1, 2, 3, 4, 5, 6] 0) ∧
    AtDu (block (zeros 7) 0) (unit (zeros 7) 0) ∧ (unit (zeros 7) 0).buf.length ≠ 6 :=
  ⟨block_at (by decide), block_at (by decide), by decide⟩

theorem wit_FormattedAddressesAreInjective : (zeros 6).length = 6 ∧ fmtAddr (zeros 6) = fmtAddr (zeros 6) := by decide

theorem wit_DecethDecodesTheHeader : AtDu (block (zeros 14) 0) (unit (zeros 14) 0) ∧ 14 ≤ (zeros 14).length ∧
    AtDu (block (zeros 13) 0) (unit (zeros 13) 0) ∧ (zeros 13).length < 14 :=
  ⟨block_at (by decide), by decide, block_at (by decide), by decide⟩

theorem wit_Decip4DecodesTheHeader :
    (AtDu (block (0x45 :: zeros 19) 0) (unit (0x45 :: zeros 19) 0) ∧
      20 = ((0x45 :: zeros 19).getD 0 0).toNat % 16 * 4 ∧ (0x45 :: zeros 19 : Bytes).length = 20) ∧
    (AtDu (block (zeros 19) 0) (unit (zeros 19) 0) ∧ 0 = ((zeros 19).getD 0 0).toNat % 16 * 4 ∧ (zeros 19).length < 20) ∧
    (AtDu (block (0x46 :: zeros 22) 0) (unit (0x46 :: zeros 22) 0) ∧
      24 = ((0x46 :: zeros 22).getD 0 0).toNat % 16 * 4 ∧ 20 ≤ (0x46 :: zeros 22 : Bytes).length ∧
      (0x46 :: zeros 22 : Bytes).length < 24) :=
  ⟨⟨block_at (by decide), by decide⟩, ⟨block_at (by decide), by decide⟩, block_at (by decide), by decide⟩

theorem wit_Decip4HeaderLengthLaw : ∃ t v r, AtDu (block (0x45 :: zeros 19) 0) (unit (0x45 :: zeros 19) 0) ∧
    exec .decip4 (block (0x45 :: zeros 19) 0) = .next t ∧ t.dus[0]? = some v ∧ v.res.ip4 = some r ∧
    5 ≤ ((0x45 :: zeros 19).getD 0 0 &&& 0x0F : Byte).toNat :=
  ⟨_, _, _, block_at (by decide), rfl, rfl, rfl, by decide⟩

theorem wit_DottedDecimalForm : (zeros 4).length = 4 ∧ dotted (zeros 4) = dotted (zeros 4) := by decide

theorem wit_DectcpDecodesTheHeader : AtDu (block (zeros 14) 0) (unit (zeros 14) 0) ∧ 14 ≤ (zeros 14).length ∧
    AtDu (block (zeros 13) 0) (unit (zeros 13) 0) ∧ (zeros 13).length < 14 :=
  ⟨block_at (by decide), by decide, block_at (by decide), by decide⟩

theorem wit_DecudpDecodesTheHeader : AtDu (block (zeros 8) 0) (unit (zeros 8) 0) ∧ 8 ≤ (zeros 8).length ∧
    AtDu (block (zeros 7) 0) (unit (zeros 7) 0) ∧ (zeros 7).length < 8 :=
  ⟨block_at (by decide), by decide, block_at (by decide), by decide⟩

theorem wit_DecicmpDecodesTheHeader : AtDu (block (zeros 4) 0) (unit (zeros 4) 0) ∧ 4 ≤ (zeros 4).length ∧
    AtDu (block (zeros 3) 0) (unit (zeros 3) 0) ∧ (zeros 3).length < 4 :=
  ⟨block_at (by decide), by decide, block_at (by decide), by decide⟩

theorem wit_DecxptDispatchesOnProto :
    (AtDu (block (zeros 4) 1) (unit (zeros 4) 1) ∧ 4 ≤ (zeros 4).length) ∧
    (AtDu (block (zeros 14) 6) (unit (zeros 14) 6) ∧ 14 ≤ (zeros 14).length) ∧
    (AtDu (block (zeros 8) 17) (unit (zeros 8) 17) ∧ 8 ≤ (zeros 8).length) ∧
    (AtDu (block [] 0) (unit [] 0) ∧ (unit [] 0).proto ≠ 1 ∧ (unit [] 0).proto ≠ 6 ∧ (unit [] 0).proto ≠ 17) ∧
    (AtDu (block (zeros 7) 17) (unit (zeros 7) 17) ∧ (unit (zeros 7) 17).proto = 17 ∧ (zeros 7).length < 8) :=
  ⟨⟨block_at (by decide), by decide⟩, ⟨block_at (by decide), by decide⟩, ⟨block_at (by decide), by decide⟩,
    ⟨block_at (by decide), by decide⟩, block_at (by decide), by decide⟩

theorem wit_DecxptEqualsTheVariantOperation :
    (AtDu (block (zeros 4) 1) (unit (zeros 4) 1) ∧ (unit (zeros 4) 1).proto = 1) ∧
    (AtDu (block (zeros 13) 6) (unit (zeros 13) 6) ∧ (unit (zeros 13) 6).proto = 6) ∧
    (AtDu (block (zeros 8) 17) (unit (zeros 8) 17) ∧ (unit (zeros 8) 17).proto = 17) :=
  ⟨⟨block_at (by decide), rfl⟩, ⟨block_at (by decide), rfl⟩, block_at (by decide), rfl⟩

theorem wit_DecpayReadsExactlyUtf8 :
    (AtDu (block [0x7F] 0) (unit [0x7F] 0) ∧ Utf8Text (unit [0x7F] 0).buf [0x7F]) ∧
    (AtDu (block [0x80] 0) (unit [0x80] 0) ∧ ¬ ∃ cs, Utf8Text (unit [0x80] 0).buf cs) := by
  refine ⟨⟨block_at (by decide), .cons _ _ _ _ (.one 0x7F (by decide)) .nil⟩, block_at (by decide), ?_⟩
  rintro ⟨cs, h⟩
  have h : Utf8Text [0x80] cs := h
  generalize hb : ([0x80] : Bytes) = b at h
  cases h with
  | nil => cases hb
  | cons p c rest cs hp hrest =>
    cases hp with
    | one a ha =>
      simp only [List.cons_append, List.cons.injEq] at hb
      have := congrArg BitVec.toNat hb.1
      simp at this
      omega
    | two => simp at hb
    | three => simp at hb
    | four => simp at hb

theorem wit_DecpayAsciiIsText : AtDu (block [0x00, 0x7F] 0) (unit [0x00, 0x7F] 0) ∧
    ∀ v ∈ (unit [0x00, 0x7F] 0).buf, v.toNat ≤ 0x7F := ⟨block_at (by decide), by decide⟩

theorem wit_DissectStopsAtNonIpv4 : AtDu (block (zeros 14) 0) (unit (zeros 14) 0) ∧ 14 ≤ (zeros 14).length ∧
    ¬ ((zeros 14).getD 12 0 = 0x08 ∧ (zeros 14).getD 13 0 = 0x00) := ⟨block_at (by decide), by decide⟩

/-- A frame that ends one byte short of its IPv4 header. -/
def cutFrame : Bytes := (ipFrame 6 []).take 33

theorem wit_DissectErrorKeepsOuterRecords :
    (AtDu (block (zeros 13) 0) (unit (zeros 13) 0) ∧ (zeros 13).length < 14) ∧
    (AtDu (block cutFrame 0) (unit cutFrame 0) ∧ 14 ≤ cutFrame.length ∧ cutFrame.getD 12 0 = 0x08 ∧
      cutFrame.getD 13 0 = 0x00 ∧ (cutFrame.drop 14).length < 20) ∧
    (AtDu (block (ipFrame 6 (zeros 13)) 0) (unit (ipFrame 6 (zeros 13)) 0) ∧
      (ipFrame 6 (zeros 13)).getD 12 0 = 0x08 ∧ (ipFrame 6 (zeros 13)).getD 13 0 = 0x00 ∧
      20 ≤ ((ipFrame 6 (zeros 13)).drop 14).length ∧ ihlBytes ((ipFrame 6 (zeros 13)).drop 14) = 20 ∧
      ((ipFrame 6 (zeros 13)).drop 14).getD 9 0 = 6 ∧ ((ipFrame 6 (zeros 13)).drop 14).length - 20 < 14) :=
  ⟨⟨block_at (by decide), by decide⟩, ⟨block_at (by decide), by decide⟩, block_at (by decide), by decide⟩

theorem wit_DissectUnknownProtocol : AtDu (block (ipFrame 47 []) 0) (unit (ipFrame 47 []) 0) ∧
    14 ≤ (ipFrame 47 []).length ∧ (ipFrame 47 []).getD 12 0 = 0x08 ∧ (ipFrame 47 []).getD 13 0 = 0x00 ∧
    20 ≤ ((ipFrame 47 []).drop 14).length ∧ ihlBytes ((ipFrame 47 []).drop 14) ≤ ((ipFrame 47 []).drop 14).length ∧
    ((ipFrame 47 []).drop 14).getD 9 0 = 47 := ⟨block_at (by decide), by decide⟩

theorem wit_DissectDecodesEveryLayer :
    (AtDu (block (ipFrame 1 (zeros 4)) 0) (unit (ipFrame 1 (zeros 4)) 0) ∧
      (ipFrame 1 (zeros 4)).getD 12 0 = 0x08 ∧ (ipFrame 1 (zeros 4)).getD 13 0 = 0x00 ∧
      20 ≤ ((ipFrame 1 (zeros 4)).drop 14).length ∧ ihlBytes ((ipFrame 1 (zeros 4)).drop 14) = 20 ∧
      ((ipFrame 1 (zeros 4)).drop 14).getD 9 0 = 1 ∧ 4 ≤ ((ipFrame 1 (zeros 4)).drop 34).length) ∧
    (((ipFrame 6 (zeros 14)).drop 14).getD 9 0 = 6 ∧ 14 ≤ ((ipFrame 6 (zeros 14)).drop 34).length) ∧
    (((ipFrame 17 (zeros 8)).drop 14).getD 9 0 = 17 ∧ 8 ≤ ((ipFrame 17 (zeros 8)).drop 34).length) ∧
    decodeUtf8 [] = some [] ∧ decodeUtf8 [0x80] = none :=
  ⟨⟨block_at (by decide), by decide⟩, by decide, by decide, by decide, by decide⟩

/-- For DissectEqualsTheManualChain, TextBitChangesOnlyText, EthertypeSwapChangesOnlyTheNumber and
DuStatusFollowsTheErrorTable, whose hypotheses are these. -/
theorem wit_EveryDuOperationAtAWholeFrame (t : Bool) : Instr.unit (.dissect t) = .du ∧
    AtDu (block (ipFrame 17 (zeros 9)) 0) (unit (ipFrame 17 (zeros 9)) 0) := ⟨rfl, block_at (by decide)⟩

theorem wit_DuWritesOnlyItsFields : ∃ t v, Instr.decudp.unit = .du ∧ exec .decudp (block (zeros 8) 0) = .next t ∧
    t.dus[0]? = some v ∧ ResField.part .tcpPayload ∉ instrWrites .decudp :=
  ⟨_, _, rfl, rfl, rfl, by decide⟩

theorem wit_DuResultsDependOnOperandsAlone : ∃ t v, exec .decicmp (block (zeros 4) 0) = .next t ∧
    (block (zeros 4) 0).dus[0]? = some (unit (zeros 4) 0) ∧ t.dus[0]? = some v ∧
    (writer .opened [] []).cfg.etypeSwap = (block (zeros 4) 0).cfg.etypeSwap ∧
    (writer .opened [] []).cfg.maxFrameLen = (block (zeros 4) 0).cfg.maxFrameLen ∧
    ({ writer .opened [] [] with dus := [{ unit (zeros 4) 0 with st := 0x02 }] } : State).dus[0]? =
      some { unit (zeros 4) 0 with st := 0x02 } := ⟨_, _, rfl, rfl, rfl, rfl, rfl, rfl⟩

/-- For DuOperationsChangeOnlyTheirResults and DuOperationsRepeat. -/
theorem wit_DuOperationsRepeat : ∃ t, Instr.decpay.unit = .du ∧ exec .decpay (block [0x41] 0) = .next t := ⟨_, rfl, rfl⟩

/-- Two DUs with different operands. -/
def twoUnits : State := { State.reset with dus := [unit (zeros 6) 0, unit (zeros 4) 0] }

theorem wit_DusDoNotInterfere : ∃ t₁ t₂, (0 : Nat) ≠ 1 ∧ exec .fmtaddr { twoUnits with sel := 0 } = .next t₁ ∧
    exec .decicmp { t₁ with sel := 1 } = .next t₂ := ⟨_, _, by decide, rfl, rfl⟩

theorem wit_DuAndCwuCommute : ∃ s₁ t, Instr.decpay.unit = .du ∧ Instr.cwopen.unit = .cwu ∧
    exec .decpay (writer .closed [] [.ok]) = .next s₁ ∧ exec .cwopen s₁ = .next t := ⟨_, _, rfl, rfl, rfl, rfl⟩

theorem wit_SinkWriteAppendsAllOrAProperPart :
    (∃ t, sinkWrite [1, 2] (writer .opened [] [.ok]) = (true, t)) ∧
    (∃ t, sinkWrite [1, 2] (writer .opened [] [.fail 1]) = (false, t)) ∧
    ∃ t, sinkWrite [] (writer .opened [] []) = (true, t) := ⟨⟨_, rfl⟩, ⟨_, rfl⟩, _, rfl⟩

theorem wit_SinkAnswerDecidesTheWrite : ([1, 2] : Bytes) ≠ [] ∧ (writer .opened [] [.ok]).env.answers = .ok :: [] ∧
    (writer .opened [] [.fail 1]).env.answers = .fail 1 :: [] ∧ 1 < ([1, 2] : Bytes).length := by decide

theorem wit_CwopenWritesTheGlobalHeader : (writer .closed [] [.ok]).cwu.cws = .closed ∧
    (writer .closed [] [.ok]).env.answers = .ok :: [] := by decide

theorem wit_CwopenSinkFailure : (writer .closed [] [.fail 23]).cwu.cws = .closed ∧
    (writer .closed [] [.fail 23]).env.answers = .fail 23 :: [] ∧ 23 < 24 := by decide

theorem wit_CwwriteAppendsTheRecord :
    ((writer .opened [7] [.ok, .ok]).cwu.cws = .opened ∧
      (writer .opened [7] [.ok, .ok]).cwu.buf.length ≤ (writer .opened [7] [.ok, .ok]).cfg.maxFrameLen ∧
      (writer .opened [7] [.ok, .ok]).env.times = ⟨1700000000, 123456⟩ :: [] ∧
      (writer .opened [7] [.ok, .ok]).cwu.buf ≠ [] ∧
      (writer .opened [7] [.ok, .ok]).env.answers = .ok :: .ok :: []) ∧
    ((writer .opened [] [.ok]).cwu.cws = .opened ∧ (writer .opened [] [.ok]).cwu.buf = [] ∧
      (writer .opened [] [.ok]).env.times = ⟨1700000000, 123456⟩ :: [] ∧
      (writer .opened [] [.ok]).env.answers = .ok :: []) := by decide

theorem wit_RecordHeaderFields : TimeDraw.wf ⟨2 ^ 32, 999999⟩ = true ∧ 2 ^ 32 - 1 < 2 ^ 32 := by decide

theorem wit_CwwriteSinkFailure :
    ((writer .opened [7] [.fail 15]).cwu.cws = .opened ∧
      (writer .opened [7] [.fail 15]).cwu.buf.length ≤ (writer .opened [7] [.fail 15]).cfg.maxFrameLen ∧
      (writer .opened [7] [.fail 15]).env.times = ⟨1700000000, 123456⟩ :: [] ∧
      (writer .opened [7] [.fail 15]).env.answers = .fail 15 :: [] ∧ 15 < 16) ∧
    ((writer .opened [7] [.ok, .fail 0]).cwu.cws = .opened ∧
      (writer .opened [7] [.ok, .fail 0]).env.times = ⟨1700000000, 123456⟩ :: [] ∧
      (writer .opened [7] [.ok, .fail 0]).env.answers = .ok :: .fail 0 :: [] ∧
      0 < (writer .opened [7] [.ok, .fail 0]).cwu.buf.length) := by decide

theorem wit_CwwriteWhileClosed : (writer .closed [7] []).cwu.cws = .closed ∧
    (writer .closed [7] []).cwu.buf.length ≤ (writer .closed [7] []).cfg.maxFrameLen := by decide

theorem wit_CwcloseReleasesTheSink : ∃ t, exec .cwclose (writer .opened [] []) = .next t := ⟨_, rfl⟩

theorem wit_WriterStateTable (c : Cws) : (writer c [7] []).cwu.buf.length ≤ (writer c [7] []).cfg.maxFrameLen ∧
    (writer c [7] []).cwu.cws = c := ⟨by cases c <;> decide, rfl⟩

theorem wit_CwuOperationsFrame : (∃ t, exec .cwopen (writer .closed [] [.ok]) = .next t) ∧
    (∃ t, exec .cwwrite (writer .opened [7] [.ok, .ok]) = .next t) ∧
    ∃ t, exec .cwclose (writer .opened [] []) = .next t := ⟨⟨_, rfl⟩, ⟨_, rfl⟩, _, rfl⟩

/-- The first clause's hypotheses are what the second concludes; here with no frame. -/
theorem wit_CaptureRoundTrip_opened : ∃ t, exec .cwopen (writer .closed [] [.ok]) = .next t ∧ t.cwu.cws = .opened ∧
    writeFrames [] t = some t := ⟨_, rfl, rfl, rfl⟩

theorem wit_CaptureRoundTrip :
    (writer .closed [] [.ok, .ok, .ok]).cwu.cws = .closed ∧ (writer .closed [] [.ok, .ok, .ok]).offered = [] ∧
    (writer .closed [] [.ok, .ok, .ok]).cfg.wf = true ∧
    (∀ f ∈ [([7] : Bytes)], f.length ≤ (writer .closed [] [.ok, .ok, .ok]).cfg.maxFrameLen) ∧
    (∀ a ∈ (writer .closed [] [.ok, .ok, .ok]).env.answers, a = .ok) ∧
    1 + 2 * [([7] : Bytes)].length ≤ (writer .closed [] [.ok, .ok, .ok]).env.answers.length := by decide

theorem wit_PartialTailIsDetectable : (∀ x ∈ [(⟨⟨0, 0⟩, [7]⟩ : FrameWrite)], x.frame.length < 2 ^ 32) ∧
    zeros 8 ≠ [] ∧ zeros 8 <+: recordBytes false ⟨⟨0, 0⟩, [7]⟩ ∧
    (zeros 8).length < (recordBytes false ⟨⟨0, 0⟩, [7]⟩).length := by decide

/-- For StepKeepsRegistersLegal, StepKeepsTheCaptureFile and ParametersAreFixed: an open writer with a whole file, one
CWWRITE to come. -/
def capturing : State :=
  { writer .opened [7] [.ok, .ok] with
    sink := captureFile false 1 []
    inbox := [.issue .cwu 0x0B] }

theorem wit_StepKeepsTheCaptureFile : ∃ t, capturing.wf = true ∧ EmptySinks capturing ∧ FileWf capturing ∧
    step capturing = .next t := by
  refine ⟨_, by decide, ⟨rfl, by simp [capturing, writer]⟩, ⟨1, [], by simp, by decide⟩, rfl⟩

theorem wit_ResetReleasesTheSink : (asked (.access .reset)).inbox = .access .reset :: [] := by decide

/-- A DU that holds a tag and whose PROTO the host has written. -/
def writtenDu : Du :=
  { Du.reset with proto := 6, written := { Written.nothing with proto := true }, res := { Res.empty with xpt := some .tcp } }

/-- The block with that DU, LTYPE written, and one host access to come. -/
def readBack (a : Access) : State :=
  { asked (.access a) with
    dus := [writtenDu]
    cwu := { Cwu.reset with ltype := 1, written := { Written.nothing with ltype := true } } }

theorem wit_ResultReads :
    ((asked (.access (.readRes 0 .fmt))).inbox = .access (.readRes 0 .fmt) :: [] ∧
      (asked (.access (.readRes 0 .fmt))).dus[0]? = some Du.reset ∧ Du.reset.res.get .fmt = none) ∧
    ((readBack (.readRes 0 .xpt)).inbox = .access (.readRes 0 .xpt) :: [] ∧
      (readBack (.readRes 0 .xpt)).dus[0]? = some writtenDu ∧ writtenDu.res.get .xpt = some (.num 2)) := by decide

theorem wit_StatusReads : (asked (.access (.readSt (.du 0)))).inbox = .access (.readSt (.du 0)) :: [] ∧
    (asked (.access (.readSt (.du 0)))).dus[0]? = some Du.reset ∧
    (asked (.access (.readSt .cwu))).inbox = .access (.readSt .cwu) :: [] ∧
    (asked (.access .readCws)).inbox = .access .readCws :: [] := by decide

theorem wit_OperandWrites :
    ((asked (.access (.loadBuf (.du 0) [7]))).inbox = .access (.loadBuf (.du 0) [7]) :: [] ∧
      (asked (.access (.loadBuf (.du 0) [7]))).dus[0]? = some Du.reset ∧
      ([7] : Bytes).length ≤ (asked (.access (.loadBuf (.du 0) [7]))).cfg.maxFrameLen) ∧
    (asked (.access (.loadBuf .cwu [7]))).inbox = .access (.loadBuf .cwu [7]) :: [] ∧
    (({ crowded with inbox := [.access (.loadBuf .cwu [1, 2, 3])] } : State).inbox =
        .access (.loadBuf .cwu [1, 2, 3]) :: [] ∧ crowded.cfg.maxFrameLen < ([1, 2, 3] : Bytes).length) ∧
    (asked (.access (.loadProto 0 6))).inbox = .access (.loadProto 0 6) :: [] ∧
    (asked (.access (.loadLtype 1))).inbox = .access (.loadLtype 1) :: [] := by decide

theorem wit_OperandReads :
    ((asked (.access (.readOperand (.du 0) .cmd))).inbox = .access (.readOperand (.du 0) .cmd) :: [] ∧
      (asked (.access (.readOperand (.du 0) .cmd))).dus[0]? = some Du.reset ∧ Du.reset.written.cmd = false) ∧
    ((readBack (.readOperand (.du 0) .proto)).inbox = .access (.readOperand (.du 0) .proto) :: [] ∧
      (readBack (.readOperand (.du 0) .proto)).dus[0]? = some writtenDu ∧ writtenDu.written.proto = true) ∧
    ((readBack (.readOperand .cwu .ltype)).inbox = .access (.readOperand .cwu .ltype) :: [] ∧
      (readBack (.readOperand .cwu .ltype)).cwu.written.ltype = true ∧
      (readBack (.readOperand .cwu .buflen)).inbox = .access (.readOperand .cwu .buflen) :: [] ∧
      (readBack (.readOperand .cwu .buflen)).cwu.written.buf = false) := by decide

theorem wit_PresentedSinkWaits : (asked (.access (.offerSink [7]))).inbox = .access (.offerSink [7]) :: [] := by decide

end Sys2Proof.Tests
end

