-- ==== Sys2Proof/Proofs/Scope.lean ====
section
/-! Proofs of the scope family: a DU operation and a CWU operation commute (O33), no step changes a parameter (O52), and
what reset leaves (O53). -/

namespace Sys2Proof.Machine

open Sys2Proof

/-! ### The CWU looks at no DU: its operations run alike whatever a DU holds (R2, R262) -/

section Frame

variable (s : State) (k : Nat) (u : Du)

theorem drawTime_setDu : drawTime (s.setDu k u) = ((drawTime s).1, (drawTime s).2.setDu k u) := by
  cases h : s.env.times <;> simp [drawTime, h, State.setDu]

theorem drawAnswer_setDu : drawAnswer (s.setDu k u) = ((drawAnswer s).1, (drawAnswer s).2.setDu k u) := by
  cases h : s.env.answers <;> simp [drawAnswer, h, State.setDu]

theorem sinkWrite_setDu (bs : Bytes) :
    sinkWrite bs (s.setDu k u) = ((sinkWrite bs s).1, (sinkWrite bs s).2.setDu k u) := by
  cases bs with
  | nil => simp only [sinkWrite_nil]
  | cons x xs =>
    simp only [sinkWrite, drawAnswer_setDu]
    rfl

theorem endCwu_setDu (e : Err) (c : Cws) : (s.setDu k u).endCwu e c = (s.endCwu e c).setDu k u := rfl

theorem raiseCwu_setDu (e : Err) (c : Cws) : raiseCwu (s.setDu k u) e c = (raiseCwu s e c).setDu k u := rfl

theorem openWriter_setDu : openWriter (s.setDu k u) = (openWriter s).setDu k u := by
  have bind : { s.setDu k u with sink := (s.setDu k u).offered } = State.setDu { s with sink := s.offered } k u := rfl
  simp only [openWriter, bind, sinkWrite_setDu, endCwu_setDu, raiseCwu_setDu, apply_ite (State.setDu · k u)]
  rfl

theorem writeRecord_setDu : writeRecord (s.setDu k u) = (writeRecord s).setDu k u := by
  simp only [writeRecord, State.setDu_cfg, State.setDu_cwu, drawTime_setDu, sinkWrite_setDu, endCwu_setDu,
    raiseCwu_setDu, apply_ite (State.setDu · k u)]

end Frame

/-- A DU replaced beforehand only shows as that DU replaced afterwards; in particular it decides no refusal. -/
theorem exec_cwu_setDu_next {j : Instr} (hj : j.unit = .cwu) (s t : State) (k : Nat) (u : Du) :
    exec j (s.setDu k u) = .next t ↔ ∃ t', exec j s = .next t' ∧ t = t'.setDu k u := by
  cases j with
  | cwopen =>
    cases h : s.cwu.cws <;> simp [exec, execCwopen, h, openWriter_setDu, eq_comm]
  | cwwrite =>
    by_cases hf : s.cfg.fits s.cwu.buf = true
    · cases h : s.cwu.cws <;> simp [exec, execCwwrite, hf, h, raiseCwu_setDu, writeRecord_setDu, eq_comm]
    · simp [exec, execCwwrite, hf]
  | cwclose => simp [exec, execCwclose, endCwu_setDu, eq_comm]
  | _ => cases hj

/-- A CWU operation leaves the parameters, the DUs and the selected port (R61, R262). -/
theorem exec_cwu_frame {j : Instr} {s t : State} (hj : j.unit = .cwu) (h : exec j s = .next t) :
    t.cfg = s.cfg ∧ t.dus = s.dus ∧ t.sel = s.sel := by
  cases j with
  | cwopen =>
    obtain ⟨-, rfl⟩ := cwopen_next h
    obtain ⟨e, he⟩ | ⟨e, p, -, -, he⟩ := openWriter_cases s <;> simp [he]
  | cwwrite =>
    obtain ⟨-, ⟨-, rfl⟩ | ⟨-, rfl⟩⟩ := cwwrite_next h
    · simp
    · obtain ⟨e, d, he⟩ | ⟨e, d, p, -, -, he⟩ := writeRecord_cases s <;> simp [he]
  | cwclose => simp [cwclose_next h]
  | _ => cases hj

/-! ### A DU operation looks at the parameters, the selected port and its own unit only (R38) -/

/-- A DU operation that completes does so with the same new unit from every state that agrees on what it reads. -/
theorem exec_du_replay {i : Instr} {s t : State} (hi : i.unit = .du) (h : exec i s = .next t) :
    ∃ v, t = s.setDu s.sel v ∧ ∀ s' : State, s'.cfg = s.cfg → s'.dus = s.dus → s'.sel = s.sel →
      exec i s' = .next (s'.setDu s.sel v) := by
  obtain ⟨u, a, hu, hf, ha, rfl⟩ := exec_du_next hi h
  refine ⟨_, rfl, fun s' hcfg hdus hsel => ?_⟩
  rw [exec_du hi, runDu_completes (u := u) (a := a) (by rw [hdus, hsel, hu]) (by rw [hcfg, hf])
    (by rw [hcfg, ha]), hsel]

/-- Settles O33: the CWU's operation commutes with replacing the DU, and leaves all that the DU's operation reads. -/
theorem duAndCwuCommute : Obligations.DuAndCwuCommute := by
  intro i j s t hi hj
  constructor
  · rintro ⟨s₁, h₁, h⟩
    obtain ⟨v, rfl, replay⟩ := exec_du_replay hi h₁
    obtain ⟨s₂, h₂, rfl⟩ := (exec_cwu_setDu_next hj s t s.sel v).mp h
    obtain ⟨hcfg, hdus, hsel⟩ := exec_cwu_frame hj h₂
    exact ⟨s₂, h₂, replay s₂ hcfg hdus hsel⟩
  · rintro ⟨s₂, h₂, h⟩
    obtain ⟨hcfg, hdus, hsel⟩ := exec_cwu_frame hj h₂
    obtain ⟨v, rfl, replay⟩ := exec_du_replay hi h
    refine ⟨s.setDu s.sel v, ?_, ?_⟩
    · rw [replay s hcfg.symm hdus.symm hsel.symm, hsel]
    · exact (exec_cwu_setDu_next hj s _ s.sel v).mpr ⟨s₂, h₂, by rw [hsel]⟩

/-! ### The parameters (R6, R26) -/

/-- `t` has the parameters of `s`, `N_DU` among them. -/
def SameParams (s t : State) : Prop := t.cfg = s.cfg ∧ t.dus.length = s.dus.length

theorem exec_sameParams {i : Instr} {s t : State} (h : exec i s = .next t) : SameParams s t := by
  cases hi : i.unit with
  | du =>
    obtain ⟨u, a, -, -, -, rfl⟩ := exec_du_next hi h
    exact ⟨rfl, List.length_set⟩
  | cwu =>
    obtain ⟨hcfg, hdus, -⟩ := exec_cwu_frame hi h
    exact ⟨hcfg, congrArg List.length hdus⟩

theorem hostAccess_sameParams {a : Access} {s t : State} (h : hostAccess a s = .next t) : SameParams s t := by
  obtain ⟨k, u, b, -, -, rfl⟩ | ⟨b, -, rfl⟩ | ⟨k, u, v, -, rfl⟩ | ⟨l, rfl⟩ | ⟨c, -, rfl⟩ | ⟨v, rfl⟩ | rfl :=
    hostAccess_next h <;> simp [SameParams]

theorem present_sameParams (s : State) (p : Port) (c : Byte) : SameParams s (s.present p c) := by
  cases p with
  | du k => cases h : s.dus[k]? <;> simp [SameParams, State.present, h]
  | cwu => exact ⟨rfl, rfl⟩

/-- Settles O52: taking the event off the list, delivering the command byte and running what is asked each keep the
parameters. -/
theorem parametersAreFixed : Obligations.ParametersAreFixed := by
  intro s t h
  obtain ⟨-, rfl⟩ | ⟨a, rest, -, ha⟩ | ⟨p, c, rest, i, -, -, hi⟩ := step_next h
  · exact ⟨rfl, rfl⟩
  · exact hostAccess_sameParams (s := { s with inbox := rest }) ha
  · obtain ⟨hcfg, hlen⟩ := exec_sameParams hi
    obtain ⟨pcfg, plen⟩ := present_sameParams { s with inbox := rest } p c
    exact ⟨hcfg.trans pcfg, hlen.trans plen⟩

/-! ### Reset (R41) -/

/-- An empty RES has no field to read (R37). -/
@[simp] theorem Res.empty_get (f : ResField) : Res.empty.get f = none := by cases f <;> rfl

/-- Settles O53: the one DU after reset is `Du.reset`, whose RES is empty. -/
theorem resetState : Obligations.ResetState := by
  refine ⟨rfl, rfl, rfl, fun u hu => ?_⟩
  obtain rfl : u = Du.reset := List.mem_singleton.mp hu
  exact ⟨rfl, Res.empty_get⟩

end Sys2Proof.Machine
end

/-! Proofs of the state family: every step keeps the registers legal (O48, O49) and SINK a capture file (O50, O51), what
a DU operation leaves (O28 to O31), and what a request, a host access and a reset do (O1, O5, O6, O54 to O58). -/

namespace Sys2Proof.Machine
open Sys2Proof

/-! ### A command byte is written to CMD of the unit at its port (R22) -/

theorem present_du_none {s : State} {k : Nat} (h : s.dus[k]? = none) (c : Byte) :
    s.present (.du k) c = { s with sel := k } := by
  simp only [State.present, h]

theorem present_du_some {s : State} {k : Nat} {u : Du} (h : s.dus[k]? = some u) (c : Byte) :
    s.present (.du k) c =
      { s.setDu k { u with cmd := c, written := { u.written with cmd := true } } with sel := k } := by
  simp only [State.present, h]

/-! ### Widths of the text forms (R28, R29) -/

/-- Two digits for each byte and a colon between bytes (R121). -/
theorem fmtAddr_length : ∀ b : Bytes, (fmtAddr b).length = 3 * b.length - 1
  | [] => rfl
  | [_] => rfl
  | v :: w :: rest => by
    have ih := fmtAddr_length (w :: rest)
    simp only [fmtAddr, hexByte, List.length_append, List.length_cons, List.length_nil] at ih ⊢
    omega

theorem decByte_length (v : Byte) : 1 ≤ (decByte v).length ∧ (decByte v).length ≤ 3 := by
  simp only [decByte]
  split
  · simp
  · split <;> simp

/-- One to three digits for each byte and a dot between bytes (R143). -/
theorem dotted_length : ∀ b : Bytes, 2 * b.length - 1 ≤ (dotted b).length ∧ (dotted b).length ≤ 4 * b.length - 1
  | [] => by simp [dotted]
  | [v] => decByte_length v
  | v :: w :: rest => by
    have hv := decByte_length v
    have ih := dotted_length (w :: rest)
    simp only [dotted, List.length_append, List.length_cons] at ih ⊢
    omega

/-! ### The records DU operations write are well formed (R28, R29) -/

theorem ethRecOf_wf {swap : Bool} {b : Bytes} (h : 14 ≤ b.length) : (ethRecOf swap b).wf = true := by
  have hd : (b.take 6).length = 6 := by simp; omega
  have hs : ((b.drop 6).take 6).length = 6 := by simp; omega
  simp only [EthRec.wf, ethRecOf, fmtAddr_length, hd, hs]
  decide

theorem ihlBytes_toNat (b : Bytes) : (BitVec.ofNat 6 (ihlBytes b)).toNat = ihlBytes b := by
  rw [BitVec.toNat_ofNat, ihlBytes]
  omega

theorem ip4RecOf_wf {b : Bytes} (h : 20 ≤ b.length) : (ip4RecOf b).wf = true := by
  have hs : ((b.drop 12).take 4).length = 4 := by simp; omega
  have hd : ((b.drop 16).take 4).length = 4 := by simp; omega
  have hsl := dotted_length ((b.drop 12).take 4)
  have hdl := dotted_length ((b.drop 16).take 4)
  rw [hs] at hsl
  rw [hd] at hdl
  have hhl : ihlBytes b % 4 = 0 := Nat.mul_mod_left _ 4
  simp only [Ip4Rec.wf, Bool.and_eq_true, decide_eq_true_eq]
  simp only [ip4RecOf, ihlBytes_toNat, hs, hd, hhl, and_true, true_and]
  omega

theorem length_of_ipv4_fits {b : Bytes} (h : ¬ipv4TooShort b = true) : 20 ≤ b.length := by
  rw [ipv4TooShort_iff] at h
  omega

theorem Res.wf_fmt {f : Bytes} (h : f.length = 17) : Res.wf { Res.empty with fmt := some f } = true := by
  simp [Res.wf, Res.empty, h]

theorem Res.wf_eth {r : EthRec} (h : r.wf = true) : Res.wf { Res.empty with eth := some r } = true := by
  simp [Res.wf, Res.empty, h]

theorem Res.wf_ip4 {r : Ip4Rec} (h : r.wf = true) : Res.wf { Res.empty with ip4 := some r } = true := by
  simp [Res.wf, Res.empty, h]

theorem Res.withVariant_wf {res : Res} (h : res.wf = true) (hu : res.unk = none) (v : Variant) :
    (res.withVariant v).wf = true := by
  cases v <;> simp_all [Res.wf, Res.withVariant]

theorem Res.withText_wf {res : Res} (h : res.wf = true) (hc : res.txtChars = none) (b : Bytes) :
    (res.withText b).wf = true := by
  unfold Res.withText
  split <;> simp_all [Res.wf]

theorem Res.withVariant_txtChars (res : Res) (v : Variant) : (res.withVariant v).txtChars = res.txtChars := by
  cases v <;> rfl

theorem textLayer_wf {res : Res} (h : res.wf = true) (hc : res.txtChars = none) (t : Bool) (v : Variant) :
    (textLayer t v res).wf = true := by
  unfold textLayer
  split
  · exact Res.withText_wf h hc _
  · exact h

theorem chainRes1_wf {swap : Bool} {b : Bytes} (h : 14 ≤ b.length) : (chainRes1 swap b).wf = true := by
  simp [Res.wf, chainRes1, Res.chainStart, Res.empty, ethRecOf_wf h]

theorem chainRes2_wf {swap : Bool} {b : Bytes} (h : 14 ≤ b.length) (h4 : 20 ≤ (b.drop 14).length) :
    (chainRes2 swap b).wf = true := by
  simp [Res.wf, chainRes2, chainRes1, Res.chainStart, Res.empty, ethRecOf_wf h, ip4RecOf_wf h4]


/-! ### What a DU operation answers is legal (R23, R28 to R36) -/

/-- An answer whose ST byte and RES are within what the spec gives them. -/
def DuAnswer.Legal (a : DuAnswer) : Prop := duStLegal (mkSt a.err a.elayer) = true ∧ a.res.wf = true

theorem duStLegal_ok : duStLegal (mkSt .ok .notLayered) = true := by decide

theorem duStLegal_malformedAddress : duStLegal (mkSt .malformedAddress .notLayered) = true := by decide

theorem duStLegal_truncatedFrame (l : Layer) : duStLegal (mkSt .truncatedFrame l) = true := by cases l <;> decide

theorem DuAnswer.legal_ok {res : Res} (h : res.wf = true) : DuAnswer.Legal ⟨.ok, .notLayered, res⟩ :=
  ⟨duStLegal_ok, h⟩

theorem DuAnswer.legal_truncatedFrame (l : Layer) {res : Res} (h : res.wf = true) :
    DuAnswer.Legal ⟨.truncatedFrame, l, res⟩ :=
  ⟨duStLegal_truncatedFrame l, h⟩

theorem DuAnswer.legal_malformedAddress : DuAnswer.Legal ⟨.malformedAddress, .notLayered, Res.empty⟩ :=
  ⟨duStLegal_malformedAddress, rfl⟩

theorem Res.empty_wf : Res.empty.wf = true := by decide

theorem Res.chainStart_wf : Res.chainStart.wf = true := by decide

/-- Each layer's record is well formed because the layer's length check passed (R195, R199). -/
theorem dissectChain_legal {swap t : Bool} {b : Bytes} {a : DuAnswer} (h : dissectChain swap t b = .ok a) :
    a.Legal := by
  rw [dissectChain_eq] at h
  cases h
  split
  · exact DuAnswer.legal_truncatedFrame _ Res.chainStart_wf
  next h14 =>
  have h1 := chainRes1_wf (swap := swap) (Nat.not_lt.mp h14)
  split
  · exact DuAnswer.legal_ok h1
  split
  · exact DuAnswer.legal_truncatedFrame _ h1
  next hip =>
  have h2 := chainRes2_wf (swap := swap) (Nat.not_lt.mp h14) (length_of_ipv4_fits hip)
  split
  · exact DuAnswer.legal_truncatedFrame _ h2
  · exact DuAnswer.legal_ok (textLayer_wf (Res.withVariant_wf h2 rfl _) (Res.withVariant_txtChars _ _) t _)

/-- A single-layer operation's answer is legal where the record it writes is, its length check having passed. -/
theorem DuAnswer.legal_checked {c : Prop} [Decidable c] {res : Res} (h : ¬c → res.wf = true) :
    DuAnswer.Legal (if c then ⟨.truncatedFrame, .notLayered, Res.empty⟩ else ⟨.ok, .notLayered, res⟩) := by
  split
  next => exact DuAnswer.legal_truncatedFrame _ Res.empty_wf
  next hc => exact DuAnswer.legal_ok (h hc)

theorem duBody_legal {swap : Bool} {i : Instr} {u : Du} {a : DuAnswer} (h : duBody swap i u = .ok a) : a.Legal := by
  cases i with
  | fmtaddr =>
    rw [fmtaddr_answer] at h
    cases h
    split
    · exact DuAnswer.legal_malformedAddress
    · exact DuAnswer.legal_ok (Res.wf_fmt (by rw [fmtAddr_length]; omega))
  | deceth =>
    rw [deceth_answer] at h
    cases h
    exact DuAnswer.legal_checked fun hlen => Res.wf_eth (ethRecOf_wf (Nat.not_lt.mp hlen))
  | decip4 =>
    rw [decip4_answer] at h
    cases h
    exact DuAnswer.legal_checked fun hlen => Res.wf_ip4 (ip4RecOf_wf (length_of_ipv4_fits hlen))
  | decxpt =>
    rw [decxpt_answer] at h
    cases h
    exact DuAnswer.legal_checked fun _ => Res.withVariant_wf Res.empty_wf rfl _
  | dectcp =>
    rw [dectcp_answer] at h
    cases h
    exact DuAnswer.legal_checked fun _ => rfl
  | decudp =>
    rw [decudp_answer] at h
    cases h
    exact DuAnswer.legal_checked fun _ => rfl
  | decicmp =>
    rw [decicmp_answer] at h
    cases h
    exact DuAnswer.legal_checked fun _ => rfl
  | decpay =>
    cases h
    exact DuAnswer.legal_ok (Res.withText_wf Res.empty_wf rfl _)
  | dissect t => exact dissectChain_legal h
  | cwopen | cwwrite | cwclose =>
    cases h
    exact DuAnswer.legal_ok Res.empty_wf

/-! ### Every step keeps the registers legal (O48) -/

theorem State.wf_iff (s : State) :
    s.wf = true ↔ s.cfg.wf = true ∧ s.dus ≠ [] ∧ (∀ u ∈ s.dus, u.wf s.cfg = true) ∧ s.cwu.wf s.cfg = true := by
  simp [State.wf, and_assoc]

theorem Du.wf_iff (c : Params) (u : Du) :
    u.wf c = true ↔ c.fits u.buf = true ∧ duStLegal u.st = true ∧ u.res.wf = true := by
  simp [Du.wf, and_assoc]

theorem Cwu.wf_iff (c : Params) (w : Cwu) : w.wf c = true ↔ c.fits w.buf = true ∧ cwuStLegal w.st = true := by
  simp [Cwu.wf]

theorem Du.reset_wf (c : Params) : Du.reset.wf c = true :=
  (Du.wf_iff c _).mpr ⟨by simp [Params.fits, Du.reset], by decide, by decide⟩

theorem Cwu.reset_wf (c : Params) : Cwu.reset.wf c = true :=
  (Cwu.wf_iff c _).mpr ⟨by simp [Params.fits, Cwu.reset], by decide⟩

section Legal

variable {s : State} (hs : s.wf = true)

include hs

theorem State.wf_du {k : Nat} {u : Du} (hu : s.dus[k]? = some u) : u.wf s.cfg = true := by
  obtain ⟨-, -, hdus, -⟩ := (State.wf_iff s).mp hs
  exact hdus u (List.mem_of_getElem? hu)

theorem State.setDu_wf (k : Nat) {u : Du} (hu : u.wf s.cfg = true) : (s.setDu k u).wf = true := by
  obtain ⟨hcfg, hne, hdus, hcwu⟩ := (State.wf_iff s).mp hs
  refine (State.wf_iff _).mpr ⟨hcfg, by simpa using hne, fun w hw => ?_, hcwu⟩
  rcases List.mem_or_eq_of_mem_set hw with hw | rfl
  · exact hdus w hw
  · exact hu

/-- Only the CWU's registers may differ; the rest of the state counts for nothing. -/
theorem State.wf_of_cwu {t : State} (hcfg : t.cfg = s.cfg) (hdus : t.dus = s.dus) (hcwu : t.cwu.wf s.cfg = true) :
    t.wf = true := by
  obtain ⟨hc, hne, hd, -⟩ := (State.wf_iff s).mp hs
  rw [State.wf_iff, hcfg, hdus]
  exact ⟨hc, hne, hd, hcwu⟩

theorem State.resetBlock_wf : s.resetBlock.wf = true := by
  obtain ⟨hcfg, hne, -, -⟩ := (State.wf_iff s).mp hs
  refine (State.wf_iff _).mpr ⟨hcfg, by simpa using hne, fun w hw => ?_, Cwu.reset_wf _⟩
  obtain ⟨-, -, rfl⟩ := List.mem_map.mp hw
  exact Du.reset_wf _

theorem present_wf (p : Port) (c : Byte) : (s.present p c).wf = true := by
  cases p with
  | cwu =>
    obtain ⟨-, -, -, hcwu⟩ := (State.wf_iff s).mp hs
    exact State.wf_of_cwu hs rfl rfl hcwu
  | du k =>
    cases hu : s.dus[k]? with
    | none =>
      rw [present_du_none hu]
      exact hs
    | some u =>
      have hw := State.wf_du hs hu
      rw [present_du_some hu]
      exact State.setDu_wf hs k (u := { u with cmd := c, written := { u.written with cmd := true } }) hw

theorem hostAccess_wf {a : Access} {t : State} (h : hostAccess a s = .next t) : t.wf = true := by
  obtain ⟨k, u, b, hu, hf, rfl⟩ | ⟨b, hf, rfl⟩ | ⟨k, u, v, hu, rfl⟩ | ⟨l, rfl⟩ | ⟨c, -, rfl⟩ | ⟨v, rfl⟩ | rfl :=
    hostAccess_next h
  · obtain ⟨-, hst, hres⟩ := (Du.wf_iff _ u).mp (State.wf_du hs hu)
    exact State.setDu_wf hs k ((Du.wf_iff _ _).mpr ⟨hf, hst, hres⟩)
  · obtain ⟨-, -, -, hcwu⟩ := (State.wf_iff s).mp hs
    exact State.wf_of_cwu hs rfl rfl ((Cwu.wf_iff _ _).mpr ⟨hf, ((Cwu.wf_iff _ _).mp hcwu).2⟩)
  · have hw := State.wf_du hs hu
    exact State.setDu_wf hs k (u := { u with proto := v, written := _ }) hw
  · obtain ⟨-, -, -, hcwu⟩ := (State.wf_iff s).mp hs
    exact State.wf_of_cwu hs rfl rfl hcwu
  · exact hs
  · exact hs
  · exact State.resetBlock_wf hs

theorem exec_du_wf {i : Instr} {t : State} (hi : i.unit = .du) (h : exec i s = .next t) : t.wf = true := by
  obtain ⟨u, a, hu, hf, ha, rfl⟩ := exec_du_next hi h
  obtain ⟨hst, hres⟩ := duBody_legal ha
  exact State.setDu_wf hs s.sel ((Du.wf_iff _ _).mpr ⟨hf, hst, hres⟩)

end Legal

/-- Of its registers a CWU operation changes ST and CWS alone, and the error it reports is one of R23's. -/
theorem exec_cwu_registers {j : Instr} {s t : State} (hj : j.unit = .cwu) (h : exec j s = .next t) :
    ∃ e c, (e = .ok ∨ e = .ioError ∨ e = .closedWriter) ∧
      t.cwu = { s.cwu with st := mkSt e .notLayered, cws := c } := by
  cases j with
  | cwopen =>
    obtain ⟨-, rfl⟩ := cwopen_next h
    obtain ⟨e, he⟩ | ⟨e, p, -, -, he⟩ := openWriter_cases s
    · exact ⟨.ok, .opened, .inl rfl, by rw [he]⟩
    · exact ⟨.ioError, .closed, .inr (.inl rfl), by rw [he]⟩
  | cwwrite =>
    obtain ⟨-, ⟨-, rfl⟩ | ⟨-, rfl⟩⟩ := cwwrite_next h
    · exact ⟨.closedWriter, .closed, .inr (.inr rfl), rfl⟩
    · obtain ⟨e, d, he⟩ | ⟨e, d, p, -, -, he⟩ := writeRecord_cases s
      · exact ⟨.ok, .opened, .inl rfl, by rw [he]⟩
      · exact ⟨.ioError, .openFailed, .inr (.inl rfl), by rw [he]⟩
  | cwclose => exact ⟨.ok, .closed, .inl rfl, by rw [cwclose_next h]; rfl⟩
  | _ => cases hj

theorem exec_cwu_wf {j : Instr} {s t : State} (hs : s.wf = true) (hj : j.unit = .cwu) (h : exec j s = .next t) :
    t.wf = true := by
  obtain ⟨hcfg, hdus, -⟩ := exec_cwu_frame hj h
  obtain ⟨e, c, he, hcwu⟩ := exec_cwu_registers hj h
  obtain ⟨-, -, -, hw⟩ := (State.wf_iff s).mp hs
  have hst : cwuStLegal (mkSt e .notLayered) = true := by rcases he with rfl | rfl | rfl <;> decide
  refine State.wf_of_cwu hs hcfg hdus ?_
  rw [hcwu]
  exact (Cwu.wf_iff _ _).mpr ⟨((Cwu.wf_iff _ _).mp hw).1, hst⟩

theorem exec_wf {i : Instr} {s t : State} (hs : s.wf = true) (h : exec i s = .next t) : t.wf = true := by
  cases hi : i.unit with
  | du => exact exec_du_wf hs hi h
  | cwu => exact exec_cwu_wf hs hi h

/-- Settles O48: taking the event off the list changes no register, and what the event asks for keeps each within what
the spec gives it. -/
theorem stepKeepsRegistersLegal : Obligations.StepKeepsRegistersLegal := by
  intro s t hs h
  obtain ⟨-, rfl⟩ | ⟨a, rest, -, ha⟩ | ⟨p, c, rest, i, -, -, hi⟩ := step_next h
  · exact hs
  · exact hostAccess_wf (s := { s with inbox := rest }) hs ha
  · exact exec_wf (present_wf (s := { s with inbox := rest }) hs p c) hi

/-- Settles O49: the one DU after reset is `Du.reset`, the CWU is `Cwu.reset`. -/
theorem resetRegistersAreLegal : Obligations.ResetRegistersAreLegal := by
  refine (State.wf_iff _).mpr ⟨by decide, by decide, fun u hu => ?_, Cwu.reset_wf _⟩
  obtain rfl : u = Du.reset := List.mem_singleton.mp hu
  exact Du.reset_wf _

/-! ### Every step keeps SINK a capture file (O50) -/

/-- SINK, CWS and the parameters are all `FileWf` looks at. -/
theorem FileWf.congr {s t : State} (hs : FileWf s) (hcws : t.cwu.cws = s.cwu.cws) (hsink : t.sink = s.sink)
    (hcfg : t.cfg = s.cfg) : FileWf t := by
  unfold FileWf at hs ⊢
  rw [hcws, hsink, hcfg]
  exact hs

/-- A writer that is CLOSED owns no sink (R25). -/
theorem fileWf_closed {s : State} (h : s.cwu.cws = .closed) : FileWf s := by
  simp [FileWf, h]

theorem captureFile_nil (big : Bool) (l : BitVec 32) : captureFile big l [] = globalHeader big l := by
  simp [captureFile]

theorem captureFile_append (big : Bool) (l : BitVec 32) (rs : List FrameWrite) (r : FrameWrite) :
    captureFile big l (rs ++ [r]) = captureFile big l rs ++ recordBytes big r := by
  simp [captureFile]

theorem openWriter_fileWf {s : State} (ho : s.offered = []) : FileWf (openWriter s) := by
  obtain ⟨e, he⟩ | ⟨e, p, -, -, he⟩ := openWriter_cases s
  · rw [he]
    exact ⟨s.cwu.ltype, [], by simp, by simp [ho, captureFile_nil]⟩
  · exact fileWf_closed (by rw [he])

/-- The record written joins the file, or is the one cut short at its end (R57, R221). -/
theorem writeRecord_fileWf {s : State} (hs : FileWf s) (ho : s.cwu.cws = .opened)
    (hfits : s.cwu.buf.length ≤ s.cfg.maxFrameLen) : FileWf (writeRecord s) := by
  simp only [FileWf, ho] at hs
  obtain ⟨l, rs, hrs, hsink⟩ := hs
  obtain ⟨e, d, he⟩ | ⟨e, d, p, hp, hlt, he⟩ := writeRecord_cases s
  · rw [he]
    refine ⟨l, rs ++ [⟨d, s.cwu.buf⟩], fun r hr => ?_, by rw [captureFile_append, hsink]⟩
    obtain hr | hr := List.mem_append.mp hr
    · exact hrs r hr
    · obtain rfl := List.mem_singleton.mp hr
      exact hfits
  · rw [he]
    exact ⟨l, rs, ⟨d, s.cwu.buf⟩, p, List.forall_mem_cons.mpr ⟨hfits, hrs⟩, hp, hlt, by rw [hsink]⟩

theorem exec_fileWf {i : Instr} {s t : State} (ho : s.offered = []) (hs : FileWf s) (h : exec i s = .next t) :
    FileWf t := by
  cases hi : i.unit with
  | du =>
    obtain ⟨u, a, -, -, -, rfl⟩ := exec_du_next hi h
    exact hs.congr rfl rfl rfl
  | cwu =>
    cases i with
    | cwopen =>
      obtain ⟨-, rfl⟩ := cwopen_next h
      exact openWriter_fileWf ho
    | cwwrite =>
      obtain ⟨hfits, ⟨-, rfl⟩ | ⟨hopen, rfl⟩⟩ := cwwrite_next h
      · exact fileWf_closed rfl
      · exact writeRecord_fileWf hs hopen hfits
    | cwclose =>
      rw [cwclose_next h]
      exact fileWf_closed rfl
    | _ => cases hi

/-- No operation takes the presented sink away (log entry 20) or touches what the host will do. -/
theorem exec_host_frame {i : Instr} {s t : State} (h : exec i s = .next t) :
    t.offered = s.offered ∧ t.inbox = s.inbox := by
  cases hi : i.unit with
  | du =>
    obtain ⟨u, a, -, -, -, rfl⟩ := exec_du_next hi h
    exact ⟨rfl, rfl⟩
  | cwu =>
    cases i with
    | cwopen =>
      obtain ⟨-, rfl⟩ := cwopen_next h
      obtain ⟨e, he⟩ | ⟨e, p, -, -, he⟩ := openWriter_cases s <;> simp [he]
    | cwwrite =>
      obtain ⟨-, ⟨-, rfl⟩ | ⟨-, rfl⟩⟩ := cwwrite_next h
      · exact ⟨rfl, rfl⟩
      · obtain ⟨e, d, he⟩ | ⟨e, d, p, -, -, he⟩ := writeRecord_cases s <;> simp [he]
    | cwclose => simp [cwclose_next h]
    | _ => cases hi

/-- A host access leaves SINK to the CWU: it keeps SINK and CWS, or resets the writer to CLOSED. -/
theorem hostAccess_fileWf {a : Access} {s t : State} (hs : FileWf s) (h : hostAccess a s = .next t) : FileWf t := by
  obtain ⟨k, u, b, -, -, rfl⟩ | ⟨b, -, rfl⟩ | ⟨k, u, v, -, rfl⟩ | ⟨l, rfl⟩ | ⟨c, -, rfl⟩ | ⟨v, rfl⟩ | rfl :=
    hostAccess_next h
  · exact hs.congr rfl rfl rfl
  · exact hs.congr rfl rfl rfl
  · exact hs.congr rfl rfl rfl
  · exact hs.congr rfl rfl rfl
  · exact hs.congr rfl rfl rfl
  · exact hs.congr rfl rfl rfl
  · exact fileWf_closed rfl

/-- What is presented changes only by the host presenting it (R210). -/
theorem hostAccess_host_frame {a : Access} {s t : State} (h : hostAccess a s = .next t) :
    (t.offered = s.offered ∨ a = .offerSink t.offered) ∧ t.inbox = s.inbox := by
  obtain ⟨k, u, b, -, -, rfl⟩ | ⟨b, -, rfl⟩ | ⟨k, u, v, -, rfl⟩ | ⟨l, rfl⟩ | ⟨c, ha, rfl⟩ | ⟨v, rfl⟩ | rfl :=
    hostAccess_next h
  · exact ⟨.inl rfl, rfl⟩
  · exact ⟨.inl rfl, rfl⟩
  · exact ⟨.inl rfl, rfl⟩
  · exact ⟨.inl rfl, rfl⟩
  · exact ⟨.inr ha, rfl⟩
  · exact ⟨.inl rfl, rfl⟩
  · exact ⟨.inl rfl, rfl⟩

theorem present_keeps_file (s : State) (p : Port) (c : Byte) :
    (s.present p c).cwu.cws = s.cwu.cws ∧ (s.present p c).sink = s.sink ∧ (s.present p c).cfg = s.cfg ∧
      (s.present p c).offered = s.offered ∧ (s.present p c).inbox = s.inbox := by
  cases p with
  | cwu => simp [State.present]
  | du k =>
    cases hu : s.dus[k]? with
    | none => simp [present_du_none hu]
    | some u => simp [present_du_some hu]

/-- What the host presents later stays empty as its events are taken. -/
theorem EmptySinks.tail {s : State} {e : HostEvent} {rest : List HostEvent} (hs : EmptySinks s)
    (h : s.inbox = e :: rest) : EmptySinks { s with inbox := rest } := by
  obtain ⟨hoffered, hcoming⟩ := hs
  exact ⟨hoffered, fun c hc => hcoming c (h ▸ List.mem_cons_of_mem e hc)⟩

theorem EmptySinks.congr {s t : State} (hs : EmptySinks s) (hoffered : t.offered = s.offered)
    (hinbox : t.inbox = s.inbox) : EmptySinks t := by
  unfold EmptySinks at hs ⊢
  rw [hoffered, hinbox]
  exact hs

theorem hostAccess_emptySinks {a : Access} {s t : State} (hs : EmptySinks s) (ha : ∀ c, a = .offerSink c → c = [])
    (h : hostAccess a s = .next t) : EmptySinks t := by
  obtain ⟨hoffered | hoffered, hinbox⟩ := hostAccess_host_frame h
  · exact hs.congr hoffered hinbox
  · exact ⟨ha _ hoffered, by rw [hinbox]; exact hs.2⟩

/-- Settles O50: the file grows by whole records while OPEN, and the one cut short ends it; a new file begins on the
presented sink, which stays empty because every sink the host presents is. -/
theorem stepKeepsTheCaptureFile : Obligations.StepKeepsTheCaptureFile := by
  intro s t hempty hfile h
  obtain ⟨-, rfl⟩ | ⟨a, rest, hin, ha⟩ | ⟨p, c, rest, i, hin, -, hi⟩ := step_next h
  · exact ⟨hempty, hfile⟩
  · have hpresented : ∀ c, a = .offerSink c → c = [] := by
      rintro c rfl
      exact hempty.2 c (by simp [hin])
    have hfile' : FileWf { s with inbox := rest } := hfile
    exact ⟨hostAccess_emptySinks (hempty.tail hin) hpresented ha, hostAccess_fileWf hfile' ha⟩
  · obtain ⟨hcws, hsink, hcfg, hoffered, hinbox⟩ := present_keeps_file { s with inbox := rest } p c
    have hempty' := (hempty.tail hin).congr hoffered hinbox
    obtain ⟨toffered, tinbox⟩ := exec_host_frame hi
    exact ⟨hempty'.congr toffered tinbox, exec_fileWf hempty'.1 (hfile.congr hcws hsink hcfg) hi⟩

/-- Settles O51: nothing is presented, nothing is to come, and the writer is CLOSED. -/
theorem resetOwnsNoSink : Obligations.ResetOwnsNoSink :=
  ⟨⟨rfl, fun _ h => absurd h List.not_mem_nil⟩, fileWf_closed rfl⟩

/-! ### What a DU operation leaves in its unit (O28 to O31) -/

/-- No field of this part of RES holds a value (R37). -/
def Res.Blank (r : Res) : ResPart → Prop
  | .fmt => r.fmt = none
  | .eth => r.eth = none
  | .ip4 => r.ip4 = none
  | .tcp => r.tcp = none
  | .udp => r.udp = none
  | .icmp => r.icmp = none
  | .unk => r.unk = none
  | .xpt => r.xpt = none
  | .txt => r.txtTag = none ∧ r.txtBytes = none ∧ r.txtChars = none
  | .valid => r.ethValid = none ∧ r.ip4Valid = none

theorem Res.get_of_blank {r : Res} {f : ResField} (h : r.Blank f.part) : r.get f = none := by
  cases f <;> simp_all [Res.Blank, ResField.part, Res.get]

theorem Res.empty_blank (p : ResPart) : Res.empty.Blank p := by
  cases p <;> simp [Res.Blank, Res.empty]

theorem Res.withVariant_blank {res : Res} {p : ResPart} (hp : p ∉ instrWrites .decxpt) (h : res.Blank p) (v : Variant) :
    (res.withVariant v).Blank p := by
  cases p with
  | xpt | tcp | udp | icmp | unk => exact absurd (by decide) hp
  | _ => cases v <;> exact h

theorem Res.withText_blank {res : Res} {p : ResPart} (hp : p ∉ instrWrites .decpay) (h : res.Blank p) (b : Bytes) :
    (res.withText b).Blank p := by
  unfold Res.withText
  cases p with
  | txt => exact absurd (by decide) hp
  | _ => split <;> exact h

theorem textLayer_blank {res : Res} {p : ResPart} (hp : p ∉ instrWrites .decpay) (h : res.Blank p) (t : Bool)
    (v : Variant) : (textLayer t v res).Blank p := by
  unfold textLayer
  split
  · exact Res.withText_blank hp h _
  · exact h

/-- Of all parts the chain leaves only `fmt` alone, at whichever layer it ends (R195). -/
theorem dissectChain_blank_fmt {swap t : Bool} {b : Bytes} {a : DuAnswer} (h : dissectChain swap t b = .ok a) :
    a.res.Blank .fmt := by
  rw [dissectChain_eq] at h
  cases h
  split
  · rfl
  split
  · rfl
  split
  · rfl
  split
  · rfl
  have h2 : (chainRes2 swap b).Blank .fmt := rfl
  exact textLayer_blank (by decide) (Res.withVariant_blank (by decide) h2 _) t _

/-- A single-layer operation leaves RES empty where its check fails (R37, R244). -/
theorem DuAnswer.checked_blank {c : Prop} [Decidable c] {e : Err} {l : Layer} {res : Res} {p : ResPart}
    (h : res.Blank p) : (if c then ⟨e, l, Res.empty⟩ else ⟨.ok, .notLayered, res⟩ : DuAnswer).res.Blank p := by
  split
  · exact Res.empty_blank p
  · exact h

/-- A DU operation starts from an empty RES and writes only its own parts (R37, R80). -/
theorem duBody_blank {swap : Bool} {i : Instr} {u : Du} {a : DuAnswer} {p : ResPart} (hi : i.unit = .du)
    (hp : p ∉ instrWrites i) (h : duBody swap i u = .ok a) : a.res.Blank p := by
  cases i with
  | fmtaddr =>
    rw [fmtaddr_answer] at h
    cases h
    exact DuAnswer.checked_blank (by cases p <;> simp_all [Res.Blank, Res.empty, instrWrites])
  | deceth =>
    rw [deceth_answer] at h
    cases h
    exact DuAnswer.checked_blank (by cases p <;> simp_all [Res.Blank, Res.empty, instrWrites])
  | decip4 =>
    rw [decip4_answer] at h
    cases h
    exact DuAnswer.checked_blank (by cases p <;> simp_all [Res.Blank, Res.empty, instrWrites])
  | decxpt =>
    rw [decxpt_answer] at h
    cases h
    exact DuAnswer.checked_blank (Res.withVariant_blank hp (Res.empty_blank p) _)
  | dectcp =>
    rw [dectcp_answer] at h
    cases h
    exact DuAnswer.checked_blank (by cases p <;> simp_all [Res.Blank, Res.empty, instrWrites])
  | decudp =>
    rw [decudp_answer] at h
    cases h
    exact DuAnswer.checked_blank (by cases p <;> simp_all [Res.Blank, Res.empty, instrWrites])
  | decicmp =>
    rw [decicmp_answer] at h
    cases h
    exact DuAnswer.checked_blank (by cases p <;> simp_all [Res.Blank, Res.empty, instrWrites])
  | decpay =>
    cases h
    exact Res.withText_blank hp (Res.empty_blank p) _
  | dissect t =>
    obtain rfl : p = .fmt := by cases p <;> simp_all [instrWrites]
    exact dissectChain_blank_fmt h
  | cwopen | cwwrite | cwclose => cases hi

/-- The unit a DU operation leaves, with the answer of its body in ST and RES. -/
theorem exec_du_result {i : Instr} {s t : State} {v : Du} (hi : i.unit = .du) (h : exec i s = .next t)
    (hv : t.dus[s.sel]? = some v) :
    ∃ u a, s.dus[s.sel]? = some u ∧ s.cfg.fits u.buf = true ∧ duBody s.cfg.etypeSwap i u = .ok a ∧
      v = { u with st := mkSt a.err a.elayer, res := a.res } := by
  obtain ⟨u, a, hu, hf, ha, rfl⟩ := exec_du_next hi h
  exact ⟨u, a, hu, hf, ha, Option.some.inj (hv.symm.trans (setDu_get hu))⟩

/-- Settles O28: the unit's RES is the operation's answer, which is blank in every other part. -/
theorem duWritesOnlyItsFields : Obligations.DuWritesOnlyItsFields := by
  intro i s t v f hi h hv hf
  obtain ⟨u, a, -, -, ha, rfl⟩ := exec_du_result hi h hv
  exact Res.get_of_blank (duBody_blank hi hf ha)

/-- Settles O29: the operation's body looks at BUF, PROTO and `ETYPE_SWAP` only, and it runs where BUF fits. -/
theorem duResultsDependOnOperandsAlone : Obligations.DuResultsDependOnOperandsAlone := by
  intro i s₁ s₂ t₁ u₁ u₂ v₁ hi h hu₁ hu₂ hswap hmax hbuf hproto hv
  obtain ⟨u, a, hu, hf, ha, rfl⟩ := exec_du_result hi h hv
  obtain rfl : u₁ = u := Option.some.inj (hu₁.symm.trans hu)
  have hat : AtDu s₂ u₂ := ⟨hu₂, by rw [← hbuf, ← hmax]; exact of_decide_eq_true hf⟩
  refine exec_leaves hi hat ?_
  rw [← hswap, ← duBody_congr _ i hbuf hproto]
  exact ha

/-- Settles O30: the one unit at the selected port is replaced, with its operands kept. -/
theorem duOperationsChangeOnlyTheirResults : Obligations.DuOperationsChangeOnlyTheirResults := by
  intro i s t hi h
  obtain ⟨u, a, hu, -, -, rfl⟩ := exec_du_next hi h
  exact ⟨u, mkSt a.err a.elayer, a.res, hu, rfl, fun k hk => List.getElem?_set_ne hk.symm, fun _ => rfl⟩

theorem State.setDu_setDu (s : State) (k : Nat) (u w : Du) : (s.setDu k u).setDu k w = s.setDu k w := by
  simp [State.setDu]

/-- Settles O31: the first run kept the operands, so the second gives the same answer and writes it again. -/
theorem duOperationsRepeat : Obligations.DuOperationsRepeat := by
  intro i s t hi h
  obtain ⟨u, a, hu, hf, ha, rfl⟩ := exec_du_next hi h
  have hat : AtDu (s.setDu s.sel { u with st := mkSt a.err a.elayer, res := a.res })
      { u with st := mkSt a.err a.elayer, res := a.res } := ⟨setDu_get hu, of_decide_eq_true hf⟩
  have hsame := duBody_congr s.cfg.etypeSwap i (u := u)
    (w := { u with st := mkSt a.err a.elayer, res := a.res }) rfl rfl
  rw [exec_leaves hi hat (hsame.symm.trans ha), duLeaves, State.setDu_sel, State.setDu_setDu]

/-! ### Requests (O1, O5) -/

/-- A byte that decodes at a port is an operation of the unit there (R82). -/
theorem decodeAt_unit {p : Port} {c : Byte} {i : Instr} (h : decodeAt p c = .ok i) : i.unit = p.kind := by
  unfold decodeAt at h
  split at h
  · cases h
  · split at h <;> cases h
    next hwf => exact beq_iff_eq.mp hwf

theorem exec_du_noSuchUnit {i : Instr} {s : State} (hi : i.unit = .du) (h : s.dus[s.sel]? = none) :
    exec i s = .refused (.noSuchUnit s.sel) := by
  simp only [exec_du hi, runDu, h]

/-- Settles O1: the request delivered to CMD of its unit, and the refusal of a port without one. -/
theorem stepRunsTheDecodedOperation : Obligations.StepRunsTheDecodedOperation := by
  intro s c rest i
  refine ⟨fun hin hdec => step_issue hin hdec, fun k u hin hdec hu => ?_, fun k hin hdec hnone => ?_⟩
  · rw [step_issue hin hdec, present_du_some (s := { s with inbox := rest }) hu]
    rfl
  · rw [step_issue hin hdec, present_du_none (s := { s with inbox := rest }) hnone]
    exact exec_du_noSuchUnit (decodeAt_unit hdec) hnone

theorem Params.fits_eq_false {c : Params} {b : Bytes} (h : c.maxFrameLen < b.length) : c.fits b = false :=
  decide_eq_false (Nat.not_le.mpr h)

/-- Settles O5: both units look at the length of BUF before anything else. -/
theorem longRequestsAreRefused : Obligations.LongRequestsAreRefused := by
  refine fun i s => ⟨fun hi u hu hlong => ?_, fun hlong => ?_⟩
  · simp [exec_du hi, runDu, hu, Params.fits_eq_false hlong]
  · simp [exec, execCwwrite, Params.fits_eq_false hlong]

/-! ### Status and tag codes (O6) -/

theorem stErr_mkSt (e : Err) (l : Layer) : stErr (mkSt e l) = e.code := by
  rw [stErr, mkSt, BitVec.extractLsb'_append_eq_of_add_le (by decide)]
  simp

theorem stElayer_mkSt (e : Err) (l : Layer) : stElayer (mkSt e l) = l.code := by
  rw [stElayer, mkSt, BitVec.extractLsb'_append_eq_of_le (by decide),
    BitVec.extractLsb'_append_eq_of_add_le (by decide)]
  simp

theorem stReserved_mkSt (e : Err) (l : Layer) : stReserved (mkSt e l) = 0 := by
  rw [stReserved, mkSt, BitVec.extractLsb'_append_eq_of_le (by decide),
    BitVec.extractLsb'_append_eq_of_le (by decide)]
  simp

/-- Settles O6: the three fields of ST by their places in `mkSt`, the codes by their definitions. -/
theorem statusAndTagCodes : Obligations.StatusAndTagCodes :=
  ⟨fun e l => ⟨stErr_mkSt e l, stElayer_mkSt e l, stReserved_mkSt e l⟩, by decide⟩

/-! ### Reset and the host's accesses (O54 to O58) -/

/-- Settles O54: every DU becomes `Du.reset`, whose RES is empty, and the CWU `Cwu.reset`. -/
theorem resetReleasesTheSink : Obligations.ResetReleasesTheSink := by
  intro s rest hin
  refine ⟨State.resetBlock { s with inbox := rest }, step_access hin, rfl, rfl, rfl, rfl, List.length_map _,
    fun u hu => ?_⟩
  obtain ⟨-, -, rfl⟩ := List.mem_map.mp hu
  exact ⟨rfl, Res.empty_get⟩

theorem withDu_some {s : State} {k : Nat} {u : Du} (h : s.dus[k]? = some u)
    (f : Du → Host.Outcome State Fault Refusal) : withDu s k f = f u := by
  simp only [withDu, h]

/-- Settles O55: the read goes to DU `k`, and its field decides. -/
theorem resultReads : Obligations.ResultReads := by
  intro s k u f rest hin hu
  have hread := withDu_some (s := { s with inbox := rest }) hu
  refine ⟨fun v hv => ?_, fun hnone => ?_⟩
  · simp only [step_access hin, hostAccess, hread, hv]
    rfl
  · simp only [step_access hin, hostAccess, hread, hnone]

/-- Settles O56: no read of a status register can be refused where its unit exists. -/
theorem statusReads : Obligations.StatusReads := by
  refine fun s rest => ⟨fun k u hin hu => ?_, fun hin => step_access hin, fun hin => step_access hin⟩
  exact (step_access hin).trans (withDu_some (s := { s with inbox := rest }) hu _)

theorem Params.fits_eq_true {c : Params} {b : Bytes} (h : b.length ≤ c.maxFrameLen) : c.fits b = true :=
  decide_eq_true h

/-- Settles O57: only a write of BUF is checked, for its length. -/
theorem operandWrites : Obligations.OperandWrites := by
  refine fun s rest b v l => ⟨fun k u hin hu hfits => ?_, fun hin hfits => ?_, fun p hin hlong => ?_,
    fun k u hin hu => ?_, fun hin => step_access hin⟩
  · simp only [step_access hin, hostAccess, loadBuf, Params.fits_eq_true hfits, if_true]
    exact withDu_some (s := { s with inbox := rest }) hu _
  · simp only [step_access hin, hostAccess, loadBuf, Params.fits_eq_true hfits, if_true]
  · simp [step_access hin, hostAccess, loadBuf, Params.fits_eq_false hlong]
  · exact (step_access hin).trans (withDu_some (s := { s with inbox := rest }) hu _)

/-- What a host read of an operand register does, once its written bit is known. -/
theorem readWritten_cases (s : State) (r : OperandReg) (w : Bool) (v : HostVal) :
    (w = true → readWritten s r w v = .next (s.deliver v)) ∧
      (w = false → readWritten s r w v = .refused (.operandNotWritten r)) := by
  constructor <;> rintro rfl <;> rfl

/-- Settles O58: each register the unit has is read through `readWritten`, with its own written bit. -/
theorem operandReads : Obligations.OperandReads := by
  refine fun s rest => ⟨fun k u r v w hin hu hreg => ?_, fun r v w hin hreg => ?_⟩
  · rw [(step_access hin).trans (withDu_some (s := { s with inbox := rest }) hu _)]
    obtain ⟨rfl, rfl, rfl⟩ | ⟨rfl, rfl, rfl⟩ | ⟨rfl, rfl, rfl⟩ | ⟨rfl, rfl, rfl⟩ := hreg <;>
      exact readWritten_cases _ _ _ _
  · rw [step_access hin]
    obtain ⟨rfl, rfl, rfl⟩ | ⟨rfl, rfl, rfl⟩ | ⟨rfl, rfl, rfl⟩ | ⟨rfl, rfl, rfl⟩ := hreg <;>
      exact readWritten_cases _ _ _ _

end Sys2Proof.Machine

/-! Proofs of the memory family: reads of the operand buffer (O34), writes to SINK (O35, O36), what the three operations
of the CWU do to SINK and to the rest of the state (O44, O45), and a capture file read back (O46, O47). -/

namespace Sys2Proof.Machine
open Sys2Proof

/-! ### No read outside the operand buffer (R51) -/

theorem exec_cwu_no_fault {j : Instr} (hj : j.unit = .cwu) (s : State) (e : Fault) : exec j s ≠ .fault e := by
  cases j with
  | cwopen => cases h : s.cwu.cws <;> simp [exec, execCwopen, h]
  | cwwrite =>
    by_cases hf : s.cfg.fits s.cwu.buf = true
    · cases h : s.cwu.cws <;> simp [exec, execCwwrite, hf, h]
    · simp [exec, execCwwrite, hf]
  | cwclose => simp [exec, execCwclose]
  | _ => cases hj

theorem exec_no_fault (i : Instr) (s : State) (e : Fault) : exec i s ≠ .fault e := by
  cases hi : i.unit with
  | du =>
    rw [exec_du hi]
    exact runDu_no_fault (duBody_answers _ i) e
  | cwu => exact exec_cwu_no_fault hi s e

theorem withDu_no_fault {s : State} {k : Nat} {f : Du → Host.Outcome State Fault Refusal} {e : Fault}
    (hf : ∀ u, f u ≠ .fault e) : withDu s k f ≠ .fault e := by
  unfold withDu
  split
  · simp
  · exact hf _

theorem readWritten_no_fault (s : State) (r : OperandReg) (w : Bool) (v : HostVal) (e : Fault) :
    readWritten s r w v ≠ .fault e := by
  cases w <;> simp [readWritten]

/-- No access of the host reads BUF by offset (R50). -/
theorem hostAccess_no_fault (a : Access) (s : State) (e : Fault) : hostAccess a s ≠ .fault e := by
  cases a with
  | loadBuf p b =>
    by_cases hf : s.cfg.fits b = true
    · cases p with
      | du k =>
        simp only [hostAccess, loadBuf, hf, if_true]
        exact withDu_no_fault (by simp)
      | cwu => simp [hostAccess, loadBuf, hf]
    · simp [hostAccess, loadBuf, hf]
  | loadProto k v => exact withDu_no_fault (by simp)
  | readSt p =>
    cases p with
    | du k => exact withDu_no_fault (by simp)
    | cwu => simp [hostAccess]
  | readRes k f =>
    refine withDu_no_fault fun u => ?_
    cases u.res.get f <;> simp
  | readOperand p r =>
    cases p with
    | du k =>
      refine withDu_no_fault fun u => ?_
      cases r <;> simp [readDuOperand, readWritten_no_fault]
    | cwu => cases r <;> simp [hostAccess, readCwuOperand, readWritten_no_fault]
  | loadLtype l => simp [hostAccess]
  | offerSink c => simp [hostAccess]
  | readCws => simp [hostAccess]
  | reset => simp [hostAccess]

theorem step_no_fault (s : State) (e : Fault) : step s ≠ .fault e := by
  cases hin : s.inbox with
  | nil => simp [step, fetch, hin]
  | cons event rest =>
    cases event with
    | access a =>
      rw [step_access hin]
      exact hostAccess_no_fault _ _ _
    | issue p c =>
      cases hd : decodeAt p c with
      | ok i =>
        rw [step_issue hin hd]
        exact exec_no_fault _ _ _
      | error r => cases r <;> simp [step, fetch, hin, hd]

/-- Settles O34: every DU operation's body answers (`duBody_answers`), and nothing else in the machine can fault. -/
theorem noReadOutOfBounds : Obligations.NoReadOutOfBounds :=
  ⟨exec_no_fault, step_no_fault⟩

/-! ### `SinkWrite` (R58) -/

/-- One answer is used up, supplied or free (log entry 6). -/
theorem drawAnswer_env (s : State) :
    (drawAnswer s).2.env = { s.env with answers := s.env.answers.tail, answersUsed := s.env.answersUsed + 1 } := by
  cases h : s.env.answers <;> simp [drawAnswer, h]

theorem sinkWrite_env {bs : Bytes} (hb : bs ≠ []) (s : State) :
    (sinkWrite bs s).2.env =
      { s.env with answers := s.env.answers.tail, answersUsed := s.env.answersUsed + 1 } := by
  simp [sinkWrite, hb, drawAnswer_env]

/-- Settles O35: the two cases of a write of at least one byte, and the write of no bytes. -/
theorem sinkWriteAppendsAllOrAProperPart : Obligations.SinkWriteAppendsAllOrAProperPart := by
  intro bs s t ok h
  have henv : bs ≠ [] → t.env = _ := fun hb => by simpa [h] using sinkWrite_env hb s
  have hnil : bs = [] → ok = true ∧ t = s := by
    rintro rfl
    simpa [sinkWrite_nil, eq_comm] using h
  obtain ⟨e, hw⟩ | ⟨e, p, -, hp, hlt, hw⟩ := sinkWrite_cases bs s
  · obtain ⟨rfl, rfl⟩ := Prod.mk.inj (h.symm.trans hw)
    exact ⟨⟨e, rfl⟩, henv, fun _ => rfl, nofun, hnil⟩
  · obtain ⟨rfl, rfl⟩ := Prod.mk.inj (h.symm.trans hw)
    exact ⟨⟨e, rfl⟩, henv, nofun, fun _ => ⟨p, hp, hlt, rfl⟩, hnil⟩

/-- Settles O36: a number of kept bytes below the write's length counts as it is named. -/
theorem sinkAnswerDecidesTheWrite : Obligations.SinkAnswerDecidesTheWrite := by
  refine fun bs s as k hb => ⟨fun h => ?_, fun h hk => ?_⟩
  · simp [sinkWrite_ok hb h]
  · simp [sinkWrite_fail hb h, Nat.min_eq_left (Nat.le_sub_one_of_lt hk)]

/-! ### The writer's states and operations (R222) -/

theorem exec_cwopen_closed {s : State} (h : s.cwu.cws = .closed) : exec .cwopen s = .next (openWriter s) := by
  simp only [exec, execCwopen, h]

theorem exec_cwopen_opened {s : State} (h : s.cwu.cws = .opened) : exec .cwopen s = .refused .cwopenWhileOpen := by
  simp only [exec, execCwopen, h]

theorem exec_cwopen_openFailed {s : State} (h : s.cwu.cws = .openFailed) :
    exec .cwopen s = .refused .cwopenWhileOpenFailed := by
  simp only [exec, execCwopen, h]

theorem exec_cwclose (s : State) : exec .cwclose s = .next (s.endCwu .ok .closed) := rfl

section Fits

variable {s : State} (hfits : s.cwu.buf.length ≤ s.cfg.maxFrameLen)
include hfits

theorem exec_cwwrite_closed (h : s.cwu.cws = .closed) :
    exec .cwwrite s = .next (raiseCwu s .closedWriter .closed) := by
  simp only [exec, execCwwrite, Params.fits_eq_true hfits, h, if_true]

theorem exec_cwwrite_opened (h : s.cwu.cws = .opened) : exec .cwwrite s = .next (writeRecord s) := by
  simp only [exec, execCwwrite, Params.fits_eq_true hfits, h, if_true]

theorem exec_cwwrite_openFailed (h : s.cwu.cws = .openFailed) :
    exec .cwwrite s = .refused .cwwriteWhileOpenFailed := by
  simp only [exec, execCwwrite, Params.fits_eq_true hfits, h, if_true]

end Fits

@[simp] theorem recordBytes_length (big : Bool) (r : FrameWrite) :
    (recordBytes big r).length = 16 + r.frame.length := by
  simp [recordBytes]

/-- CWOPEN from CLOSED: all of the header or a proper part of it, after what was presented (R210, R213). -/
theorem openWriter_result (s : State) :
    ((openWriter s).cwu.cws = .opened ∧ (openWriter s).cwu.st = 0x00 ∧
        (openWriter s).sink = s.offered ++ globalHeader s.cfg.capBigEndian s.cwu.ltype) ∨
      ((openWriter s).cwu.cws = .closed ∧ (openWriter s).cwu.st = 0x03 ∧
        ∃ p, p <+: globalHeader s.cfg.capBigEndian s.cwu.ltype ∧ p.length < 24 ∧
          (openWriter s).sink = s.offered ++ p) := by
  obtain ⟨e, he⟩ | ⟨e, p, hp, hlt, he⟩ := openWriter_cases s
  · exact .inl (by simp [he])
  · exact .inr ⟨by simp [he], by simp [he], p, hp, hlt, by simp [he]⟩

/-- CWWRITE while OPEN: all of the record or a proper part of it, after what was in SINK (R214, R215, R221). -/
theorem writeRecord_result (s : State) :
    ∃ d, ((writeRecord s).cwu.cws = .opened ∧ (writeRecord s).cwu.st = 0x00 ∧
        (writeRecord s).sink = s.sink ++ recordBytes s.cfg.capBigEndian ⟨d, s.cwu.buf⟩) ∨
      ((writeRecord s).cwu.cws = .openFailed ∧ (writeRecord s).cwu.st = 0x03 ∧
        ∃ p, p <+: recordBytes s.cfg.capBigEndian ⟨d, s.cwu.buf⟩ ∧ p.length < 16 + s.cwu.buf.length ∧
          (writeRecord s).sink = s.sink ++ p) := by
  obtain ⟨e, d, he⟩ | ⟨e, d, p, hp, hlt, he⟩ := writeRecord_cases s
  · exact ⟨d, .inl (by simp [he])⟩
  · exact ⟨d, .inr ⟨by simp [he], by simp [he], p, hp, by simpa using hlt, by simp [he]⟩⟩

/-- Settles O44: cell by cell; CWCLOSE is the same in each state. -/
theorem writerStateTable : Obligations.WriterStateTable := by
  intro s hfits
  have hclose : ∃ t, exec .cwclose s = .next t ∧ t.cwu.cws = .closed ∧ t.cwu.st = 0x00 :=
    ⟨_, exec_cwclose s, rfl, by simp⟩
  refine ⟨fun hc => ⟨?_, ?_, hclose⟩, fun ho => ⟨?_, ?_, hclose⟩, fun hf => ⟨?_, ?_, hclose⟩⟩
  · exact ⟨_, exec_cwopen_closed hc, openWriter_result s⟩
  · exact ⟨_, exec_cwwrite_closed hfits hc, rfl, by simp⟩
  · exact exec_cwopen_opened ho
  · exact ⟨_, exec_cwwrite_opened hfits ho, writeRecord_result s⟩
  · exact exec_cwopen_openFailed hf
  · exact exec_cwwrite_openFailed hfits hf

/-! ### What the operations of the CWU leave unchanged (R52, R61, R262) -/

/-- `t` is `s` but for ST and CWS of the CWU, SINK and the record of draws. -/
def OnlyCaptureChanged (s t : State) : Prop :=
  t = { s with cwu := { s.cwu with st := t.cwu.st, cws := t.cwu.cws }, sink := t.sink, env := t.env }

theorem openWriter_onlyCaptureChanged (s : State) : OnlyCaptureChanged s (openWriter s) := by
  obtain ⟨e, he⟩ | ⟨e, p, -, -, he⟩ := openWriter_cases s <;> rw [he] <;> rfl

theorem writeRecord_onlyCaptureChanged (s : State) : OnlyCaptureChanged s (writeRecord s) := by
  obtain ⟨e, d, he⟩ | ⟨e, d, p, -, -, he⟩ := writeRecord_cases s <;> rw [he] <;> rfl

theorem exec_cwu_onlyCaptureChanged {j : Instr} {s t : State} (hj : j.unit = .cwu) (h : exec j s = .next t) :
    OnlyCaptureChanged s t := by
  cases j with
  | cwopen =>
    obtain ⟨-, rfl⟩ := cwopen_next h
    exact openWriter_onlyCaptureChanged s
  | cwwrite =>
    obtain ⟨-, ⟨-, rfl⟩ | ⟨-, rfl⟩⟩ := cwwrite_next h
    · rfl
    · exact writeRecord_onlyCaptureChanged s
  | cwclose =>
    obtain rfl := cwclose_next h
    rfl
  | _ => cases hj

theorem writeRecord_sink_prefix (s : State) : s.sink <+: (writeRecord s).sink := by
  obtain ⟨d, ⟨-, -, h⟩ | ⟨-, -, p, -, -, h⟩⟩ := writeRecord_result s <;> rw [h] <;> exact List.prefix_append _ _

theorem openWriter_sink_prefix (s : State) : s.offered <+: (openWriter s).sink := by
  obtain ⟨-, -, h⟩ | ⟨-, -, p, -, -, h⟩ := openWriter_result s <;> rw [h] <;> exact List.prefix_append _ _

/-- Only CWOPEN changes what stands in SINK, by taking over another sink (R52). -/
theorem exec_cwu_sink_prefix {j : Instr} {s t : State} (hj : j.unit = .cwu) (hopen : j ≠ .cwopen)
    (h : exec j s = .next t) : s.sink <+: t.sink := by
  cases j with
  | cwopen => exact absurd rfl hopen
  | cwwrite =>
    obtain ⟨-, ⟨-, rfl⟩ | ⟨-, rfl⟩⟩ := cwwrite_next h
    · exact List.prefix_rfl
    · exact writeRecord_sink_prefix s
  | cwclose =>
    obtain rfl := cwclose_next h
    exact List.prefix_rfl
  | _ => cases hj

/-- `b` keeps every byte of its beginning `a` at its offset. -/
theorem getElem?_eq_of_prefix {a b : Bytes} (h : a <+: b) (k : Nat) (hk : k < a.length) : b[k]? = a[k]? := by
  obtain ⟨c, rfl⟩ := h
  exact List.getElem?_append_left hk

/-- A sink write draws no time. -/
theorem sinkWrite_times (bs : Bytes) (s : State) : (sinkWrite bs s).2.env.times = s.env.times := by
  by_cases hb : bs = []
  · rw [hb, sinkWrite_nil]
  · rw [sinkWrite_env hb]

theorem openWriter_times (s : State) : (openWriter s).env.times = s.env.times := by
  simp only [openWriter]
  split <;> exact sinkWrite_times _ { s with sink := s.offered }

/-- Settles O45: the frame of each operation, SINK kept as a beginning, and CWOPEN's one sink write. -/
theorem cwuOperationsFrame : Obligations.CwuOperationsFrame := by
  refine fun j s t hj h => ⟨exec_cwu_onlyCaptureChanged hj h, fun hopen => ?_, ?_, ?_⟩
  · exact getElem?_eq_of_prefix (exec_cwu_sink_prefix hj hopen h)
  · rintro rfl
    obtain rfl := cwclose_next h
    exact ⟨rfl, rfl⟩
  · rintro rfl
    obtain ⟨-, rfl⟩ := cwopen_next h
    exact ⟨getElem?_eq_of_prefix (openWriter_sink_prefix s), openWriter_times s⟩

/-! ### A capture file read back (R89, R90, R96) -/

theorem beValue_be32bytes (v : BitVec 32) : beValue (be32bytes v) = v.toNat := by
  have hv := v.isLt
  simp only [be32bytes, beValue, List.foldl, BitVec.extractLsb'_toNat, Nat.shiftRight_eq_div_pow]
  omega

theorem beValue_be16bytes (v : BitVec 16) : beValue (be16bytes v) = v.toNat := by
  have hv := v.isLt
  simp only [be16bytes, beValue, List.foldl, BitVec.extractLsb'_toNat, Nat.shiftRight_eq_div_pow]
  omega

/-- Reading undoes writing, in either byte order: the one is the other reversed (R9, R53). -/
@[simp] theorem readU32_u32bytes (big : Bool) (v : BitVec 32) : readU32 big (u32bytes big v) = v.toNat := by
  cases big <;> exact beValue_be32bytes v

@[simp] theorem readU32_u16bytes (big : Bool) (v : BitVec 16) : readU32 big (u16bytes big v) = v.toNat := by
  cases big <;> exact beValue_be16bytes v

section RecordHeader

variable (big : Bool) (d : TimeDraw) (n : Nat) (b : Bytes)

theorem recordHeader_append_ne_nil : recordHeader big d n ++ b ≠ [] :=
  List.append_ne_nil_of_left_ne_nil (recordHeader_ne_nil big d n) b

theorem recordHeader_sec : (recordHeader big d n ++ b).take 4 = u32bytes big (BitVec.ofNat 32 d.sec) := by
  simp [recordHeader]

theorem recordHeader_usec :
    ((recordHeader big d n ++ b).drop 4).take 4 = u32bytes big (BitVec.ofNat 32 d.usec) := by
  simp [recordHeader]

theorem recordHeader_inclLen :
    ((recordHeader big d n ++ b).drop 8).take 4 = u32bytes big (BitVec.ofNat 32 n) := by
  simp [recordHeader, List.drop_append, List.drop_of_length_le]

theorem recordHeader_origLen :
    ((recordHeader big d n ++ b).drop 12).take 4 = u32bytes big (BitVec.ofNat 32 n) := by
  simp [recordHeader, List.drop_append, List.drop_of_length_le]

theorem recordHeader_rest : (recordHeader big d n ++ b).drop 16 = b :=
  List.drop_left' (recordHeader_length big d n)

/-- A length of 32 bits is read back as it was written. -/
theorem recordHeader_readLen (hn : n < 2 ^ 32) : readU32 big (((recordHeader big d n ++ b).drop 8).take 4) = n := by
  rw [recordHeader_inclLen, readU32_u32bytes, BitVec.toNat_ofNat, Nat.mod_eq_of_lt hn]

end RecordHeader

/-- A frame that was written, as a reader sees its record. -/
def FrameWrite.asRead (r : FrameWrite) : ReadRecord :=
  { tsSec := r.time.sec % 2 ^ 32, tsUsec := r.time.usec % 2 ^ 32, inclLen := r.frame.length
    origLen := r.frame.length, frame := r.frame }

@[simp] theorem readRecords_nil (big : Bool) (fuel : Nat) : readRecords big fuel [] = some [] := by
  cases fuel <;> rfl

theorem readRecords_zero {big : Bool} {b : Bytes} (hb : b ≠ []) : readRecords big 0 b = none := by
  obtain ⟨x, xs, rfl⟩ := List.exists_cons_of_ne_nil hb
  rfl

/-- Bytes are left that make no whole header. -/
theorem readRecords_short {big : Bool} {fuel : Nat} {b : Bytes} (hb : b ≠ []) (h : b.length < 16) :
    readRecords big fuel b = none := by
  cases fuel with
  | zero => exact readRecords_zero hb
  | succ fuel => rw [readRecords, if_pos h]; exact hb

/-- After a whole header fewer bytes are left than it names. -/
theorem readRecords_cut {big : Bool} {fuel : Nat} {d : TimeDraw} {n : Nat} {b : Bytes} (hn : n < 2 ^ 32)
    (h : b.length < n) : readRecords big fuel (recordHeader big d n ++ b) = none := by
  have hb := recordHeader_append_ne_nil big d n b
  cases fuel with
  | zero => exact readRecords_zero hb
  | succ fuel =>
    have hlen : ¬(recordHeader big d n ++ b).length < 16 := by simp
    rw [readRecords, if_neg hlen, recordHeader_readLen big d n b hn, recordHeader_rest, if_pos h]
    exact hb

/-- A whole record is read, and the reader goes on after it. -/
theorem readRecords_record {big : Bool} {fuel : Nat} {r : FrameWrite} (hr : r.frame.length < 2 ^ 32) (b : Bytes) :
    readRecords big (fuel + 1) (recordBytes big r ++ b) = (readRecords big fuel b).map (r.asRead :: ·) := by
  obtain ⟨d, f⟩ := r
  have hlen : ¬(recordHeader big d f.length ++ (f ++ b)).length < 16 := by simp
  have hfits : ¬(f ++ b).length < f.length := by simp
  have hmod : f.length % 2 ^ 32 = f.length := Nat.mod_eq_of_lt hr
  rw [recordBytes, List.append_assoc, readRecords, if_neg hlen, recordHeader_readLen big d f.length (f ++ b) hr,
    recordHeader_rest, if_neg hfits, recordHeader_sec, recordHeader_usec, recordHeader_origLen, ← List.drop_drop,
    recordHeader_rest, List.drop_left, List.take_left]
  · simp only [readU32_u32bytes, BitVec.toNat_ofNat, hmod, FrameWrite.asRead]
  · exact recordHeader_append_ne_nil _ _ _ _

/-- Whole records are read one after another. -/
theorem readRecords_append {big : Bool} {rs : List FrameWrite} (hrs : ∀ r ∈ rs, r.frame.length < 2 ^ 32) (fuel : Nat)
    (b : Bytes) : readRecords big (rs.length + fuel) ((rs.map (recordBytes big)).flatten ++ b) =
      (readRecords big fuel b).map (rs.map FrameWrite.asRead ++ ·) := by
  induction rs with
  | nil => simp
  | cons r rs ih =>
    obtain ⟨hr, hrs⟩ := List.forall_mem_cons.mp hrs
    rw [List.map_cons, List.flatten_cons, List.append_assoc, List.length_cons, Nat.succ_add, readRecords_record hr,
      ih hrs, Option.map_map]
    rfl

/-- The length of a file bounds the number of its records. -/
theorem records_length_le (big : Bool) (rs : List FrameWrite) :
    rs.length ≤ (rs.map (recordBytes big)).flatten.length := by
  induction rs with
  | nil => simp
  | cons r rs ih =>
    simp only [List.map_cons, List.flatten_cons, List.length_append, List.length_cons, recordBytes_length]
    omega

/-- A capture file as a reader sees it: the constants of R211, the link type, and these records. -/
def fileAsRead (ltype : BitVec 32) (records : List ReadRecord) : ReadFile :=
  { magic := 0xA1B2C3D4, versionMajor := 2, versionMinor := 4, thiszone := 0, sigfigs := 0, snaplen := 65535
    linktype := ltype.toNat, records := records }

theorem readFile_globalHeader (big : Bool) (l : BitVec 32) (b : Bytes) :
    readFile big (globalHeader big l ++ b) = (readRecords big (24 + b.length) b).map (fileAsRead l) := by
  have hrest : (globalHeader big l ++ b).drop 24 = b := List.drop_left' (globalHeader_length big l)
  rw [readFile, if_neg (by simp), hrest, List.length_append, globalHeader_length]
  simp [globalHeader, i32bytes, List.drop_append, List.drop_of_length_le]
  rfl

/-- What follows the whole records of a file decides whether it reads back. -/
theorem readFile_captureFile_append {big : Bool} {rs : List FrameWrite} (hrs : ∀ r ∈ rs, r.frame.length < 2 ^ 32)
    (l : BitVec 32) (b : Bytes) : ∃ fuel, readFile big (captureFile big l rs ++ b) =
      (readRecords big fuel b).map fun tail => fileAsRead l (rs.map FrameWrite.asRead ++ tail) := by
  have hlen : rs.length ≤ 24 + ((rs.map (recordBytes big)).flatten ++ b).length := by
    have := records_length_le big rs
    rw [List.length_append]
    omega
  obtain ⟨fuel, hfuel⟩ := Nat.exists_eq_add_of_le hlen
  refine ⟨fuel, ?_⟩
  rw [captureFile, List.append_assoc, readFile_globalHeader, hfuel, readRecords_append hrs, Option.map_map]
  rfl

theorem readFile_captureFile {big : Bool} {rs : List FrameWrite} (hrs : ∀ r ∈ rs, r.frame.length < 2 ^ 32)
    (l : BitVec 32) : readFile big (captureFile big l rs) = some (fileAsRead l (rs.map FrameWrite.asRead)) := by
  obtain ⟨fuel, h⟩ := readFile_captureFile_append hrs l []
  simpa using h

/-- A record cut short does not read as one: its header is not whole, or names more bytes than are left. -/
theorem readRecords_partial {big : Bool} {fuel : Nat} {r : FrameWrite} {p : Bytes} (hr : r.frame.length < 2 ^ 32)
    (hne : p ≠ []) (hp : p <+: recordBytes big r) (hlt : p.length < (recordBytes big r).length) :
    readRecords big fuel p = none := by
  rcases Nat.lt_or_ge p.length 16 with h16 | h16
  · exact readRecords_short hne h16
  · have hheader : recordHeader big r.time r.frame.length <+: p :=
      List.prefix_of_prefix_length_le (List.prefix_append _ _) hp (by simpa using h16)
    obtain ⟨q, rfl⟩ := hheader
    exact readRecords_cut hr (by simpa using hlt)

/-- Settles O47: the reader comes to the end of the whole records and finds the one cut short. -/
theorem partialTailIsDetectable : Obligations.PartialTailIsDetectable := by
  intro big l rs r p hlen hne hp hlt
  obtain ⟨hr, hrs⟩ := List.forall_mem_cons.mp hlen
  obtain ⟨fuel, h⟩ := readFile_captureFile_append (big := big) hrs l p
  rw [h, readRecords_partial hr hne hp hlt, Option.map_none]

/-! ### Frames written one after another (R224) -/

/-- A CWWRITE that leaves the writer OPEN found it OPEN and appended a whole record (R222). -/
theorem cwwrite_opened {s t : State} (h : exec .cwwrite s = .next t) (ht : t.cwu.cws = .opened) :
    s.cwu.cws = .opened ∧ s.cwu.buf.length ≤ s.cfg.maxFrameLen ∧
      ∃ d, t.sink = s.sink ++ recordBytes s.cfg.capBigEndian ⟨d, s.cwu.buf⟩ := by
  obtain ⟨hfits, ⟨-, rfl⟩ | ⟨hopen, rfl⟩⟩ := cwwrite_next h
  · cases ht
  · obtain ⟨d, ⟨-, -, hsink⟩ | ⟨hfailed, -⟩⟩ := writeRecord_result s
    · exact ⟨hopen, hfits, d, hsink⟩
    · cases hfailed.symm.trans ht

theorem writeFrames_cons {f : Bytes} {fs : List Bytes} {s t : State} (h : writeFrames (f :: fs) s = some t) :
    ∃ u, exec .cwwrite { s with cwu := { s.cwu with buf := f } } = .next u ∧ writeFrames fs u = some t := by
  simp only [writeFrames] at h
  split at h
  · exact ⟨_, by assumption, h⟩
  · cases h

/-- A run of CWWRITEs that ends OPEN was OPEN all along, and appended one whole record for each frame. -/
theorem writeFrames_opened {fs : List Bytes} {s t : State} (h : writeFrames fs s = some t)
    (ht : t.cwu.cws = .opened) :
    s.cwu.cws = .opened ∧ (∀ f ∈ fs, f.length ≤ s.cfg.maxFrameLen) ∧
      ∃ ds, ds.length = fs.length ∧
        t.sink = s.sink ++ ((List.zipWith FrameWrite.mk ds fs).map (recordBytes s.cfg.capBigEndian)).flatten := by
  induction fs generalizing s with
  | nil =>
    cases h
    exact ⟨ht, by simp, [], rfl, by simp⟩
  | cons f fs ih =>
    obtain ⟨u, hu, hrest⟩ := writeFrames_cons h
    obtain ⟨uopen, ufits, ds, hds, hsink⟩ := ih hrest
    obtain ⟨hopen, hfits, d, hrecord⟩ := cwwrite_opened hu uopen
    obtain ⟨hcfg, -, -⟩ := exec_cwu_frame rfl hu
    rw [hcfg] at ufits hsink
    refine ⟨hopen, List.forall_mem_cons.mpr ⟨hfits, ufits⟩, d :: ds, congrArg (· + 1) hds, ?_⟩
    rw [hsink, hrecord, List.append_assoc]
    rfl

/-! ### A sink that answers ok (R58) -/

/-- The sink answers ok to the next `n` writes at least, as far as the state says. -/
def SinkTakes (n : Nat) (s : State) : Prop := (∀ a ∈ s.env.answers, a = .ok) ∧ n ≤ s.env.answers.length

theorem SinkTakes.mono {m n : Nat} {s : State} (h : SinkTakes n s) (hmn : m ≤ n) : SinkTakes m s :=
  ⟨h.1, hmn.trans h.2⟩

theorem SinkTakes.congr {n : Nat} {s t : State} (h : SinkTakes n s) (ht : t.env.answers = s.env.answers) :
    SinkTakes n t := by
  unfold SinkTakes at h ⊢
  rwa [ht]

/-- A write is taken, and uses up one answer at most. -/
theorem sinkWrite_takes {n : Nat} {s : State} (h : SinkTakes (n + 1) s) (bs : Bytes) :
    (sinkWrite bs s).1 = true ∧ SinkTakes n (sinkWrite bs s).2 := by
  by_cases hb : bs = []
  · rw [hb, sinkWrite_nil]
    exact ⟨rfl, h.mono (Nat.le_succ n)⟩
  · obtain ⟨hok, hlen⟩ := h
    obtain ⟨a, as, has⟩ := List.exists_cons_of_length_pos (Nat.zero_lt_of_lt hlen)
    rw [has] at hok hlen
    obtain ⟨rfl, hrest⟩ := List.forall_mem_cons.mp hok
    rw [sinkWrite_ok hb has]
    exact ⟨rfl, hrest, Nat.le_of_succ_le_succ hlen⟩

theorem drawTime_takes {n : Nat} {s : State} (h : SinkTakes n s) : SinkTakes n (drawTime s).2 :=
  h.congr (by cases ht : s.env.times <;> simp [drawTime, ht])

theorem openWriter_takes {n : Nat} {s : State} (h : SinkTakes (n + 1) s) :
    (openWriter s).cwu.cws = .opened ∧ SinkTakes n (openWriter s) := by
  have hbound : SinkTakes (n + 1) { s with sink := s.offered } := h
  obtain ⟨hok, hrest⟩ := sinkWrite_takes hbound (globalHeader s.cfg.capBigEndian s.cwu.ltype)
  simp only [openWriter, hok, if_true]
  exact ⟨rfl, hrest⟩

theorem writeRecord_takes {n : Nat} {s : State} (h : SinkTakes (n + 2) s) :
    (writeRecord s).cwu.cws = .opened ∧ SinkTakes n (writeRecord s) := by
  obtain ⟨hheader, hafter⟩ :=
    sinkWrite_takes (drawTime_takes h) (recordHeader s.cfg.capBigEndian (drawTime s).1 s.cwu.buf.length)
  obtain ⟨hframe, hrest⟩ := sinkWrite_takes hafter s.cwu.buf
  simp only [writeRecord, hheader, hframe, if_true]
  exact ⟨rfl, hrest⟩

/-- Two answers for each frame suffice (R214, R215). -/
theorem writeFrames_takes {fs : List Bytes} {s : State} (h : SinkTakes (2 * fs.length) s)
    (hopen : s.cwu.cws = .opened) (hfs : ∀ f ∈ fs, f.length ≤ s.cfg.maxFrameLen) :
    ∃ t, writeFrames fs s = some t ∧ t.cwu.cws = .opened := by
  induction fs generalizing s with
  | nil => exact ⟨s, rfl, hopen⟩
  | cons f fs ih =>
    obtain ⟨hf, hfs⟩ := List.forall_mem_cons.mp hfs
    have hloaded : SinkTakes (2 * fs.length + 2) { s with cwu := { s.cwu with buf := f } } := h
    obtain ⟨uopen, hrest⟩ := writeRecord_takes hloaded
    have hu := exec_cwwrite_opened (s := { s with cwu := { s.cwu with buf := f } }) hf hopen
    obtain ⟨hcfg, -, -⟩ := exec_cwu_frame rfl hu
    obtain ⟨t, ht, topen⟩ := ih hrest uopen (by rwa [hcfg])
    exact ⟨t, by simp only [writeFrames, hu, ht], topen⟩

/-! ### The round trip (R224) -/

/-- A CWOPEN on an empty sink that leaves the writer OPEN makes a capture file of no records. -/
theorem cwopen_opened {s t : State} (h : exec .cwopen s = .next t) (ht : t.cwu.cws = .opened) (hempty : s.offered = []) :
    t.sink = captureFile s.cfg.capBigEndian s.cwu.ltype [] := by
  obtain ⟨-, rfl⟩ := cwopen_next h
  obtain ⟨-, -, hsink⟩ | ⟨hclosed, -⟩ := openWriter_result s
  · rw [hsink, hempty, captureFile_nil, List.nil_append]
  · cases hclosed.symm.trans ht

theorem frame_mem_of_zipWith {ds : List TimeDraw} {fs : List Bytes} {r : FrameWrite}
    (h : r ∈ List.zipWith FrameWrite.mk ds fs) : r.frame ∈ fs := by
  obtain ⟨i, hi, rfl⟩ := List.mem_iff_getElem.mp h
  rw [List.getElem_zipWith]
  exact List.getElem_mem _

/-- A length the block accepts is a number of 32 bits (R6). -/
theorem maxFrameLen_lt {c : Params} (h : c.wf = true) : c.maxFrameLen < 2 ^ 32 := by
  simp only [Params.wf, Bool.and_eq_true, decide_eq_true_eq] at h
  omega

/-- Settles O46: the header and the whole records that the CWWRITEs append are a capture file, which reads back. -/
theorem captureRoundTrip : Obligations.CaptureRoundTrip := by
  intro s fs hclosed hempty hcfg
  refine ⟨fun t₀ t h₀ hopen₀ h hopen => ?_, fun hfits hok hcount => ?_⟩
  · have hheader := cwopen_opened h₀ hopen₀ hempty
    obtain ⟨hcfg₀, -, -⟩ := exec_cwu_frame rfl h₀
    obtain ⟨-, hfits, ds, hds, hrecords⟩ := writeFrames_opened h hopen
    rw [hcfg₀] at hfits hrecords
    have hfile : t.sink = captureFile s.cfg.capBigEndian s.cwu.ltype (List.zipWith FrameWrite.mk ds fs) := by
      rw [hrecords, hheader, captureFile_nil]
      rfl
    have hlen : ∀ r ∈ List.zipWith FrameWrite.mk ds fs, r.frame.length < 2 ^ 32 := fun r hr =>
      (hfits _ (frame_mem_of_zipWith hr)).trans_lt (maxFrameLen_lt hcfg)
    refine ⟨ds, hds, hfile, ?_, _, exec_cwclose t, rfl⟩
    rw [hfile, readFile_captureFile hlen, List.map_zipWith]
    rfl
  · have hsink : SinkTakes (2 * fs.length + 1) s := ⟨hok, by omega⟩
    obtain ⟨hopen, hrest⟩ := openWriter_takes hsink
    have h₀ := exec_cwopen_closed hclosed
    obtain ⟨hcfg₀, -, -⟩ := exec_cwu_frame rfl h₀
    obtain ⟨t, ht, topen⟩ := writeFrames_takes hrest hopen (by rwa [hcfg₀])
    exact ⟨_, t, h₀, hopen, ht, topen⟩

end Sys2Proof.Machine

/-! Proofs of the encoding family: the command byte at its port (O2, O3, O4) and the record header read back (O40). -/

namespace Sys2Proof.Machine

open Sys2Proof

/-! ### The decoder and the encoder are inverse to each other (R81) -/

/-- A row that fixes every bit is selected by its pattern alone. -/
theorem eq_pattern_of_selects {r : OpRow} (hm : r.mask = 0xFF) {c : Byte} (h : r.selects c = true) :
    c = r.pattern :=
  calc c = c &&& 0xFF := (BitVec.and_allOnes (x := c)).symm
    _ = c &&& r.mask := by rw [hm]
    _ = r.pattern := beq_iff_eq.mp h

/-- Every row's pattern is the encoding of the operation read from it. -/
theorem encode_instr_pattern : ∀ r ∈ opRows, encode (r.instr r.pattern) = r.pattern := by decide

/-- "DISSECT alone leaves bit 4, `T`, free": any other row fixes every bit (R81). -/
theorem eq_dissectRow_of_mask {r : OpRow} (hr : r ∈ opRows) (hm : r.mask ≠ 0xFF) :
    r = ⟨0x09, 0xEF, fun c => .dissect (c.getLsbD 4)⟩ := by
  fin_cases hr <;> simp at hm ⊢

/-- A byte with DISSECT's `Z` and `OP` encodes DISSECT with that byte's own bit 4 as `T`. -/
theorem encode_dissect {c : Byte} (h : c &&& 0xEF = 0x09) : encode (.dissect (c.getLsbD 4)) = c := by
  have hT : c &&& ~~~0xEF = if c.getLsbD 4 then 0x10 else 0x00 := BitVec.and_twoPow c 4
  calc encode (.dissect (c.getLsbD 4))
      = 0x09 ||| (if c.getLsbD 4 then 0x10 else 0x00) := by cases c.getLsbD 4 <;> rfl
    _ = (c &&& 0xEF) ||| (c &&& ~~~0xEF) := by rw [h, hT]
    _ = c &&& (0xEF ||| ~~~0xEF) := BitVec.and_or_distrib_left.symm
    _ = c := BitVec.and_allOnes

/-- A row reads from a byte that selects it the operation which that byte encodes. -/
theorem encode_instr_of_selects {r : OpRow} (hr : r ∈ opRows) {c : Byte} (h : r.selects c = true) :
    encode (r.instr c) = c := by
  by_cases hm : r.mask = 0xFF
  · rw [eq_pattern_of_selects hm h]
    exact encode_instr_pattern r hr
  · obtain rfl := eq_dissectRow_of_mask hr hm
    exact encode_dissect (beq_iff_eq.mp h)

theorem decode_encode (i : Instr) : decode (encode i) = some i := by
  cases i with
  | dissect t => cases t <;> rfl
  | _ => rfl

/-- A byte decodes to an operation exactly when it is that operation's encoding (R81). -/
theorem decode_eq_some_iff {c : Byte} {i : Instr} : decode c = some i ↔ c = encode i := by
  refine ⟨fun h => ?_, fun h => h ▸ decode_encode i⟩
  obtain ⟨r, hfind, rfl⟩ := Option.map_eq_some_iff.mp h
  have hselects : r.selects c = true := List.find?_some (p := fun q : OpRow => q.selects c) hfind
  exact (encode_instr_of_selects (List.mem_of_find?_eq_some hfind) hselects).symm

/-! ### The command byte at a port (R82) -/

theorem decodeAt_eq_ok_iff {p : Port} {c : Byte} {i : Instr} :
    decodeAt p c = .ok i ↔ i.wf p = true ∧ decode c = some i := by
  cases hdec : decode c with
  | none => simp [decodeAt, hdec]
  | some j =>
    by_cases hj : j.wf p = true
    · simp only [decodeAt, hdec, if_pos hj, Except.ok.injEq, Option.some.injEq]
      exact (and_iff_right_of_imp fun h => h ▸ hj).symm
    · simp only [decodeAt, hdec, if_neg hj, reduceCtorEq, false_iff, Option.some.injEq]
      exact fun ⟨hi, h⟩ => hj (h ▸ hi)

theorem decodeAt_reserved (p : Port) {c : Byte} (h : decode c = none) : decodeAt p c = .error .reserved := by
  simp only [decodeAt, h]

theorem decodeAt_wrongPort {p : Port} {c : Byte} {i : Instr} (h : decode c = some i) (hp : i.unit ≠ p.kind) :
    decodeAt p c = .error .wrongPort := by
  have hwf : ¬i.wf p = true := fun hw => hp (beq_iff_eq.mp hw)
  simp only [decodeAt, h, if_neg hwf]

/-- Settles O2: the decoder inverts the encoder (`decode_eq_some_iff`), and the port admits its own unit's operations. -/
theorem decodeAndEncodeAgree : Obligations.DecodeAndEncodeAgree := by
  intro p c i
  rw [decodeAt_eq_ok_iff, decode_eq_some_iff]

/-! ### Which bytes are codes (R81) -/

theorem decode_of_toNat {c : Byte} {n : Nat} (h : c.toNat = n) : decode c = decode (BitVec.ofNat 8 n) := by
  rw [← h, BitVec.ofNat_toNat, BitVec.setWidth_eq]

/-- The codes of the DU's operations: OP 0x1 to 0x9, and DISSECT with `T`. -/
theorem decode_du_iff {c : Byte} :
    (∃ i, decode c = some i ∧ i.unit = .du) ↔ (0x01 ≤ c.toNat ∧ c.toNat ≤ 0x09) ∨ c.toNat = 0x19 := by
  constructor
  · rintro ⟨i, hdec, hunit⟩
    rw [decode_eq_some_iff.mp hdec]
    cases i with
    | dissect t => cases t <;> decide
    | cwopen | cwwrite | cwclose => cases hunit
    | _ => decide
  · rintro (⟨hlo, hhi⟩ | hc)
    · interval_cases hc : c.toNat <;> rw [decode_of_toNat hc] <;> exact ⟨_, rfl, rfl⟩
    · rw [decode_of_toNat hc]
      exact ⟨_, rfl, rfl⟩

/-- The codes of the CWU's operations: OP 0xA to 0xC. -/
theorem decode_cwu_iff {c : Byte} :
    (∃ i, decode c = some i ∧ i.unit = .cwu) ↔ 0x0A ≤ c.toNat ∧ c.toNat ≤ 0x0C := by
  constructor
  · rintro ⟨i, hdec, hunit⟩
    rw [decode_eq_some_iff.mp hdec]
    cases i with
    | cwopen | cwwrite | cwclose => decide
    | _ => cases hunit
  · rintro ⟨hlo, hhi⟩
    interval_cases hc : c.toNat <;> rw [decode_of_toNat hc] <;> exact ⟨_, rfl, rfl⟩

/-- "The valid command bytes are exactly `0x01 .. 0x0C` and `0x19`" (R81): a code is one unit's or the other's. -/
theorem decode_isSome_iff {c : Byte} :
    (decode c).isSome = true ↔ (0x01 ≤ c.toNat ∧ c.toNat ≤ 0x0C) ∨ c.toNat = 0x19 := by
  have hunits : (decode c).isSome = true ↔
      (∃ i, decode c = some i ∧ i.unit = .du) ∨ ∃ i, decode c = some i ∧ i.unit = .cwu := by
    rw [Option.isSome_iff_exists, ← exists_or]
    refine exists_congr fun i => ?_
    cases h : i.unit <;> simp
  rw [hunits, decode_du_iff, decode_cwu_iff]
  omega

/-- Settles O3: R81's table row by row, and that no other byte is a code (`decode_isSome_iff`). -/
theorem commandBytesMeanTheirRows : Obligations.CommandBytesMeanTheirRows :=
  ⟨decode_encode .fmtaddr, decode_encode .deceth, decode_encode .decip4, decode_encode .decxpt,
    decode_encode .dectcp, decode_encode .decudp, decode_encode .decicmp, decode_encode .decpay,
    decode_encode (.dissect false), decode_encode (.dissect true), decode_encode .cwopen,
    decode_encode .cwwrite, decode_encode .cwclose, fun _ => decode_isSome_iff⟩

/-! ### Refused requests (R82) -/

section Refused

variable {s : State} {p : Port} {c : Byte} {rest : List HostEvent}

theorem step_issue_reserved (h : s.inbox = .issue p c :: rest) (hc : decode c = none) :
    step s = .refused (.reservedCommand c) := by
  simp [step, fetch, h, decodeAt_reserved p hc]

theorem step_issue_wrongPort {i : Instr} (h : s.inbox = .issue p c :: rest) (hc : decode c = some i)
    (hp : i.unit ≠ p.kind) : step s = .refused (.wrongPort c) := by
  simp [step, fetch, h, decodeAt_wrongPort hc hp]

end Refused

/-- Settles O4: a byte that is no code at all (X1), and a code at the other unit's port (X2). -/
theorem reservedCommandsAreRefused : Obligations.ReservedCommandsAreRefused := by
  intro s p c rest hin
  refine ⟨fun hc => ?_, fun hc hp => ?_, fun hc ⟨k, hp⟩ => ?_⟩
  · refine step_issue_reserved hin (Option.not_isSome_iff_eq_none.mp fun hcode => ?_)
    have hrange := decode_isSome_iff.mp hcode
    omega
  · obtain ⟨i, hdec, hunit⟩ := decode_du_iff.mpr hc
    refine step_issue_wrongPort hin hdec ?_
    simp [hp, hunit, Port.kind]
  · obtain ⟨i, hdec, hunit⟩ := decode_cwu_iff.mpr hc
    refine step_issue_wrongPort hin hdec ?_
    simp [hp, hunit, Port.kind]

/-! ### The record header (R90, R216, R217) -/

/-- A number of 32 bits is read back as it was written, in either byte order. -/
theorem readU32_u32bytes_ofNat (big : Bool) {n : Nat} (hn : n < 2 ^ 32) :
    readU32 big (u32bytes big (BitVec.ofNat 32 n)) = n := by
  rw [readU32_u32bytes, BitVec.toNat_ofNat, Nat.mod_eq_of_lt hn]

/-- The second length ends the header. -/
theorem recordHeader_drop_twelve (big : Bool) (d : TimeDraw) (n : Nat) :
    (recordHeader big d n).drop 12 = u32bytes big (BitVec.ofNat 32 n) := by
  have h := recordHeader_origLen big d n []
  rwa [List.append_nil, List.take_of_length_le (by simp)] at h

/-- Settles O40: each field is four bytes that read back (`readU32_u32bytes`); only the seconds can exceed 32 bits. -/
theorem recordHeaderFields : Obligations.RecordHeaderFields := by
  intro big d n hd hn
  have husec : d.usec < 2 ^ 32 := (of_decide_eq_true hd).trans_lt (by decide)
  have hsecField := recordHeader_sec big d n []
  have husecField := recordHeader_usec big d n []
  have hlenField := recordHeader_inclLen big d n []
  rw [List.append_nil] at hsecField husecField hlenField
  refine ⟨recordHeader_length big d n, ?_, ?_, ?_, ?_⟩
  · rw [hsecField, readU32_u32bytes, BitVec.toNat_ofNat]
  · rw [husecField, readU32_u32bytes_ofNat big husec]
  · rw [hlenField, readU32_u32bytes_ofNat big hn]
  · rw [recordHeader_drop_twelve, readU32_u32bytes_ofNat big hn]

end Sys2Proof.Machine

/-! Proofs of the address formatter family: what FMTADDR leaves (O7), and the form of FMT and its inverse (O8). -/

namespace Sys2Proof.Machine

open Sys2Proof

/-! ### Hex digits (R121) -/

/-- The arithmetic of `HEX` and the list of the codes agree. -/
theorem hexDigit_eq_getElem (d : BitVec 4) : hexDigit d = hexCodes[d.toNat]'d.isLt := by
  revert d
  decide

theorem hexDigit_mem_hexCodes (d : BitVec 4) : hexDigit d ∈ hexCodes :=
  hexDigit_eq_getElem d ▸ List.getElem_mem _

/-- The sixteen codes are distinct. -/
theorem hexDigit_injective : Function.Injective hexDigit := by
  intro d e h
  rw [hexDigit_eq_getElem, hexDigit_eq_getElem] at h
  have hcodes : hexCodes.Nodup := by decide
  exact BitVec.eq_of_toNat_eq (hcodes.getElem_inj_iff.mp h)

theorem highNibble_toNat (v : Byte) : (highNibble v).toNat = v.toNat / 16 := by
  have hv := v.isLt
  simp only [highNibble, BitVec.extractLsb'_toNat, Nat.shiftRight_eq_div_pow]
  omega

theorem lowNibble_toNat (v : Byte) : (lowNibble v).toNat = v.toNat % 16 := by
  simp [lowNibble]

/-- Its two nibbles determine a byte. -/
theorem eq_of_nibbles {v w : Byte} (hhigh : highNibble v = highNibble w) (hlow : lowNibble v = lowNibble w) :
    v = w := by
  have hdiv : v.toNat / 16 = w.toNat / 16 := by rw [← highNibble_toNat, hhigh, highNibble_toNat]
  have hmod : v.toNat % 16 = w.toNat % 16 := by rw [← lowNibble_toNat, hlow, lowNibble_toNat]
  exact BitVec.eq_of_toNat_eq (by omega)

theorem hexByte_injective : Function.Injective hexByte := by
  intro v w h
  obtain ⟨hhigh, hlow⟩ := List.cons.inj h
  exact eq_of_nibbles (hexDigit_injective hhigh) (hexDigit_injective (List.head_eq_of_cons_eq hlow))

theorem hexByte_eq_hexPair (v : Byte) : hexByte v = hexPair v := by
  simp only [hexByte, hexPair, hexDigit_eq_getElem, List.getElem_eq_getD (0 : Byte), highNibble_toNat, lowNibble_toNat]

/-! ### FMT (R121, R122) -/

/-- Another byte after the first puts three characters before the rest. -/
theorem fmtAddr_cons_cons (v w : Byte) (rest : Bytes) :
    fmtAddr (v :: w :: rest) =
      hexDigit (highNibble v) :: hexDigit (lowNibble v) :: 0x3A :: fmtAddr (w :: rest) := rfl

/-- Of every three characters the third is a colon. -/
theorem fmtAddr_colon : ∀ (b : Bytes) (i : Nat), i < (fmtAddr b).length → i % 3 = 2 → (fmtAddr b)[i]? = some 0x3A
  | [], i, hi, _ => absurd hi (Nat.not_lt_zero i)
  | [v], i, hi, h => by
    have hlen : i < 2 := hi
    omega
  | v :: w :: rest, 0, _, h => by omega
  | v :: w :: rest, 1, _, h => by omega
  | v :: w :: rest, 2, _, _ => rfl
  | v :: w :: rest, i + 3, hi, h => fmtAddr_colon (w :: rest) i (Nat.add_lt_add_iff_right.mp hi) (by omega)

/-- Of every three characters the first two are hex digits. -/
theorem fmtAddr_hex : ∀ (b : Bytes) (i : Nat), i < (fmtAddr b).length → i % 3 ≠ 2 →
    ∃ c ∈ hexCodes, (fmtAddr b)[i]? = some c
  | [], i, hi, _ => absurd hi (Nat.not_lt_zero i)
  | [v], 0, _, _ => ⟨_, hexDigit_mem_hexCodes _, rfl⟩
  | [v], 1, _, _ => ⟨_, hexDigit_mem_hexCodes _, rfl⟩
  | [v], i + 2, hi, _ => by
    have hlen : i + 2 < 2 := hi
    omega
  | v :: w :: rest, 0, _, _ => ⟨_, hexDigit_mem_hexCodes _, rfl⟩
  | v :: w :: rest, 1, _, _ => ⟨_, hexDigit_mem_hexCodes _, rfl⟩
  | v :: w :: rest, 2, _, h => absurd rfl h
  | v :: w :: rest, i + 3, hi, h => fmtAddr_hex (w :: rest) i (Nat.add_lt_add_iff_right.mp hi) (by omega)

/-- Strings of equally many bytes are read back byte by byte: two digits, then past the colon. -/
theorem eq_of_fmtAddr_eq : ∀ {a b : Bytes}, a.length = b.length → fmtAddr a = fmtAddr b → a = b
  | [], [], _, _ => rfl
  | [v], [v'], _, h => congrArg (fun x => [x]) (hexByte_injective h)
  | v :: w :: rest, v' :: w' :: rest', hlen, h => by
    obtain ⟨hbyte, htail⟩ := List.append_inj h rfl
    have hrest : w :: rest = w' :: rest' :=
      eq_of_fmtAddr_eq (Nat.succ.inj hlen) (List.tail_eq_of_cons_eq htail)
    rw [hexByte_injective hbyte, hrest]

/-- Settles O8: the form is that of FMT of any bytes (`fmtAddr_length`, `fmtAddr_colon`, `fmtAddr_hex`), and strings of
equally many bytes are read back (`eq_of_fmtAddr_eq`). -/
theorem formattedAddressesAreInjective : Obligations.FormattedAddressesAreInjective := by
  refine ⟨fun a ha => ?_, fun a b ha hb => eq_of_fmtAddr_eq (ha.trans hb.symm)⟩
  have hlen : (fmtAddr a).length = 17 := by rw [fmtAddr_length, ha]
  exact ⟨hlen, fun i hi => ⟨fmtAddr_colon a i (hlen ▸ hi), fmtAddr_hex a i (hlen ▸ hi)⟩⟩

/-! ### FMTADDR (R120) -/

section Fmtaddr

variable {s : State} {u : Du} (h : AtDu s u)

include h

theorem exec_fmtaddr_six (hlen : u.buf.length = 6) :
    exec .fmtaddr s = duLeaves s u 0x00 { Res.empty with fmt := some (fmtAddr u.buf) } := by
  rw [exec_leaves rfl h (fmtaddr_answer _ u), if_neg (not_not.mpr hlen), mkSt_ok]

theorem exec_fmtaddr_wrong (hlen : u.buf.length ≠ 6) : exec .fmtaddr s = duLeaves s u 0x02 Res.empty := by
  rw [exec_leaves rfl h (fmtaddr_answer _ u), if_pos hlen, mkSt_malformedAddress]

end Fmtaddr

/-- Settles O7: what FMTADDR leaves by the length of its operand, the digits of each byte named by its value
(`hexByte_eq_hexPair`). -/
theorem fmtaddrFormatsAddresses : Obligations.FmtaddrFormatsAddresses := by
  refine fun s u h => ⟨fun a b c d e f hbuf => ?_, exec_fmtaddr_wrong h⟩
  rw [exec_fmtaddr_six h (by rw [hbuf]; rfl), hbuf]
  simp only [fmtAddr, hexByte_eq_hexPair, List.append_assoc, List.cons_append, List.nil_append]

end Sys2Proof.Machine

/-! Proofs of the Ethernet family: `ETYPE_SWAP` changes only the number reported as ethertype (O26), and what DECETH
leaves (O9). -/

namespace Sys2Proof.Machine

open Sys2Proof

/-! ### What follows layer 1 looks at no ethertype (R134) -/

theorem Res.withoutEthertype_withVariant (res : Res) (v : Variant) :
    (res.withVariant v).withoutEthertype = res.withoutEthertype.withVariant v := by
  cases v <;> rfl

theorem Res.withoutEthertype_withText (res : Res) (b : Bytes) :
    (res.withText b).withoutEthertype = res.withoutEthertype.withText b := by
  unfold Res.withText
  split <;> rfl

theorem textLayer_withoutEthertype (t : Bool) (v : Variant) (res : Res) :
    (textLayer t v res).withoutEthertype = textLayer t v res.withoutEthertype := by
  unfold textLayer
  split
  · exact Res.withoutEthertype_withText res _
  · rfl

/-! ### The answers under the two settings of `ETYPE_SWAP` (R133) -/

/-- An answer without the number reported as ethertype. -/
def DuAnswer.withoutEthertype (a : DuAnswer) : DuAnswer := { a with res := a.res.withoutEthertype }

section Swap

variable {swap swap' : Bool}

/-- The records after layer 2 differ in the number alone, as the Ethernet record does. -/
theorem chainRes2_withoutEthertype (b : Bytes) :
    (chainRes2 swap b).withoutEthertype = (chainRes2 swap' b).withoutEthertype := rfl

/-- The chain takes the same way under both settings, because it compares the bytes at 12 and 13 and not the number
(R93, R134). -/
theorem dissectChain_withoutEthertype {t : Bool} {b : Bytes} {a a' : DuAnswer} (h : dissectChain swap t b = .ok a)
    (h' : dissectChain swap' t b = .ok a') : a.withoutEthertype = a'.withoutEthertype := by
  rw [dissectChain_eq] at h h'
  cases h
  cases h'
  split
  · rfl
  split
  · rfl
  split
  · rfl
  split
  · rfl
  · simp only [DuAnswer.withoutEthertype, textLayer_withoutEthertype, Res.withoutEthertype_withVariant,
      chainRes2_withoutEthertype (swap := swap) (swap' := swap')]

/-- Only DECETH and DISSECT read `ETYPE_SWAP` at all. -/
theorem duBody_withoutEthertype {i : Instr} {u : Du} {a a' : DuAnswer} (h : duBody swap i u = .ok a)
    (h' : duBody swap' i u = .ok a') : a.withoutEthertype = a'.withoutEthertype := by
  cases i with
  | deceth =>
    rw [deceth_answer] at h h'
    cases h
    cases h'
    split <;> rfl
  | dissect t => exact dissectChain_withoutEthertype h h'
  | _ => exact congrArg DuAnswer.withoutEthertype (Except.ok.inj (h.symm.trans h'))

end Swap

/-- Settles O26: the operation answers under either setting, and the two answers agree but for the number
(`duBody_withoutEthertype`). -/
theorem ethertypeSwapChangesOnlyTheNumber : Obligations.EthertypeSwapChangesOnlyTheNumber := by
  intro i s u hi hat
  obtain ⟨a, ha⟩ := duBody_answers false i u
  obtain ⟨a', ha'⟩ := duBody_answers true i u
  obtain ⟨herr, hlayer, hres⟩ := DuAnswer.mk.inj (duBody_withoutEthertype ha ha')
  refine ⟨mkSt a.err a.elayer, a.res, a'.res, exec_leaves hi hat ha, ?_, hres⟩
  rw [herr, hlayer]
  exact exec_leaves hi hat ha'

/-! ### DECETH (R130) -/

section Deceth

variable {s : State} {u : Du} (h : AtDu s u)

include h

theorem exec_deceth_fits (hlen : 14 ≤ u.buf.length) :
    exec .deceth s = duLeaves s u 0x00 { Res.empty with eth := some (ethRecOf s.cfg.etypeSwap u.buf) } := by
  rw [exec_leaves rfl h (deceth_answer _ u), if_neg (Nat.not_lt.mpr hlen), mkSt_ok]

theorem exec_deceth_short (hlen : u.buf.length < 14) : exec .deceth s = duLeaves s u 0x01 Res.empty := by
  rw [exec_leaves rfl h (deceth_answer _ u), if_pos hlen, mkSt_truncatedFrame]

end Deceth

/-- Settles O9: the statement's record is `ethRecOf`, written out. -/
theorem decethDecodesTheHeader : Obligations.DecethDecodesTheHeader :=
  fun _ _ h => ⟨exec_deceth_fits h, exec_deceth_short h⟩

end Sys2Proof.Machine

/-! Proofs of the IPv4 family: what DECIP4 leaves (O10), the law of its header length (O11), and the form of DOTTED and its
inverse (O12). -/

namespace Sys2Proof.Machine

open Sys2Proof

/-! ### DECIP4 (R140) -/

section Decip4

variable {s : State} {u : Du} (h : AtDu s u)

include h

/-- Neither of R144's two checks fails. -/
theorem exec_decip4_fits (hlen : 20 ≤ u.buf.length) (hhl : ihlBytes u.buf ≤ u.buf.length) :
    exec .decip4 s = duLeaves s u 0x00 { Res.empty with ip4 := some (ip4RecOf u.buf) } := by
  have hfits : ¬ipv4TooShort u.buf = true := by
    rw [ipv4TooShort_iff]
    omega
  rw [exec_leaves rfl h (decip4_answer _ u), if_neg hfits, mkSt_ok]

/-- Either of R144's two checks fails. -/
theorem exec_decip4_short (hshort : u.buf.length < 20 ∨ u.buf.length < ihlBytes u.buf) :
    exec .decip4 s = duLeaves s u 0x01 Res.empty := by
  rw [exec_leaves rfl h (decip4_answer _ u), if_pos ((ipv4TooShort_iff _).mpr hshort), mkSt_truncatedFrame]

/-- A record that DECIP4 leaves is the operand's own, and the operand passed both checks. -/
theorem exec_decip4_record {t : State} {v : Du} {r : Ip4Rec} (hexec : exec .decip4 s = .next t)
    (hv : t.dus[s.sel]? = some v) (hr : v.res.ip4 = some r) :
    20 ≤ u.buf.length ∧ ihlBytes u.buf ≤ u.buf.length ∧ r = ip4RecOf u.buf := by
  obtain ⟨w, a, hw, -, ha, rfl⟩ := exec_du_result rfl hexec hv
  obtain rfl : w = u := Option.some.inj (hw.symm.trans h.1)
  rw [decip4_answer] at ha
  cases ha
  split at hr
  · cases hr
  · rename_i hfits
    rw [ipv4TooShort_iff] at hfits
    exact ⟨by omega, by omega, (Option.some.inj hr).symm⟩

end Decip4

theorem highNibble_eq_ofNat (v : Byte) : highNibble v = BitVec.ofNat 4 (v.toNat / 16) := by
  rw [← highNibble_toNat, BitVec.ofNat_toNat, BitVec.setWidth_eq]

/-- Settles O10: the statement's record is `ip4RecOf`, written out, with the version by its value
(`highNibble_eq_ofNat`). -/
theorem decip4DecodesTheHeader : Obligations.Decip4DecodesTheHeader := by
  rintro s u _ h rfl
  refine ⟨fun hlen hhl => ?_, fun hlen => exec_decip4_short h (.inl hlen), fun _ hhl => exec_decip4_short h (.inr hhl)⟩
  rw [← highNibble_eq_ofNat]
  exact exec_decip4_fits h hlen hhl

/-! ### The header length (R91, R146) -/

/-- IHL is the low nibble of the first byte, taken by R146's mask or by its value. -/
theorem ihlBytes_eq_and (b : Bytes) : ihlBytes b = (b.getD 0 0 &&& 0x0F).toNat * 4 := by
  have hmask : (b.getD 0 0).toNat &&& 0x0F = (b.getD 0 0).toNat % 16 := Nat.and_two_pow_sub_one_eq_mod _ 4
  rw [BitVec.toNat_and, ihlBytes, ← hmask]
  rfl

theorem ip4RecOf_headerLength_toNat (b : Bytes) : (ip4RecOf b).headerLength.toNat = ihlBytes b := ihlBytes_toNat b

/-- Four bits of IHL: at most 15 words. -/
theorem ihlBytes_le (b : Bytes) : ihlBytes b ≤ 60 := by
  rw [ihlBytes]
  omega

/-- Settles O11: the record is that of the operand (`exec_decip4_record`), whose payload drops the header length, which
the second check has compared with `n`. -/
theorem decip4HeaderLengthLaw : Obligations.Decip4HeaderLengthLaw := by
  intro s t u v r h hexec hv hr
  obtain ⟨-, hhl, rfl⟩ := exec_decip4_record h hexec hv hr
  have hle := ihlBytes_le u.buf
  have hpayload : (ip4RecOf u.buf).payload.length = u.buf.length - ihlBytes u.buf := List.length_drop
  rw [ip4RecOf_headerLength_toNat, hpayload]
  rw [ihlBytes_eq_and] at hhl hle ⊢
  exact ⟨rfl, Nat.mul_mod_left _ 4, hle, by omega, List.drop_suffix _ _, by omega⟩

/-! ### Decimal numerals (R143) -/

theorem decDigit_toNat {d : Nat} (hd : d < 10) : (decDigit d).toNat = 0x30 + d := by
  rw [decDigit, BitVec.toNat_ofNat]
  omega

/-- The model's digits are the library's. -/
theorem ofNat_digitChar {d : Nat} (hd : d < 10) : BitVec.ofNat 8 (Nat.digitChar d).toNat = decDigit d := by
  rw [Nat.toNat_digitChar_of_lt_ten hd, decDigit]

theorem numeral_of_lt_ten {n : Nat} (hn : n < 10) : numeral n = [decDigit n] := by
  rw [numeral, Nat.toDigits_of_lt_base hn, List.map_singleton, ofNat_digitChar hn]

theorem numeral_of_ten_le {n : Nat} (hn : 10 ≤ n) : numeral n = numeral (n / 10) ++ [decDigit (n % 10)] := by
  rw [numeral, Nat.toDigits_of_base_le (by decide) hn, List.map_append, List.map_singleton,
    ofNat_digitChar (Nat.mod_lt n (by decide)), numeral]

/-- The three lengths of a byte's numeral: the last digit comes off once for each further digit. -/
theorem decByte_eq_numeral (v : Byte) : decByte v = numeral v.toNat := by
  have hv := v.isLt
  simp only [decByte]
  split
  · rw [numeral_of_lt_ten (by omega)]
  split
  · rw [numeral_of_ten_le (by omega), numeral_of_lt_ten (by omega), List.singleton_append]
  · rw [numeral_of_ten_le (by omega), numeral_of_ten_le (by omega), numeral_of_lt_ten (by omega), Nat.div_div_eq_div_mul,
      List.singleton_append, List.cons_append, List.singleton_append]

/-- The number that a decimal numeral shows. -/
def decValue (ds : Bytes) : Nat := ds.foldl (fun n c => n * 10 + (c.toNat - 0x30)) 0

theorem decValue_append_digit (ds : Bytes) {d : Nat} (hd : d < 10) :
    decValue (ds ++ [decDigit d]) = decValue ds * 10 + d := by
  rw [decValue, List.foldl_append, List.foldl_cons, List.foldl_nil, decDigit_toNat hd, Nat.add_sub_cancel_left, decValue]

/-- A number is read back from its numeral. -/
theorem decValue_numeral (n : Nat) : decValue (numeral n) = n := by
  induction n using Nat.strong_induction_on with
  | h n ih =>
    rcases Nat.lt_or_ge n 10 with hn | hn
    · rw [numeral_of_lt_ten hn, ← List.nil_append [_], decValue_append_digit _ hn]
      exact Nat.zero_add n
    · rw [numeral_of_ten_le hn, decValue_append_digit _ (Nat.mod_lt n (by decide)), ih (n / 10) (by omega)]
      omega

theorem decByte_injective : Function.Injective decByte := by
  intro v w h
  rw [decByte_eq_numeral, decByte_eq_numeral] at h
  exact BitVec.eq_of_toNat_eq (by rw [← decValue_numeral v.toNat, h, decValue_numeral])

/-- The dot's code is below those of the digits. -/
theorem dot_notMem_numeral (n : Nat) : 0x2E ∉ numeral n := by
  intro h
  obtain ⟨c, hc, hdot⟩ := List.mem_map.mp h
  obtain ⟨hlo, hhi⟩ : 0x30 ≤ c.toNat ∧ c.toNat ≤ 0x39 :=
    Char.isDigit_iff_toNat.mp (Nat.isDigit_of_mem_toDigits (by decide) (by decide) hc)
  have hcode : c.toNat % 256 = 0x2E := congrArg BitVec.toNat hdot
  omega

/-! ### DOTTED (R143) -/

/-- The first dot ends a numeral. -/
theorem takeWhile_decByte_append (v : Byte) (rest : Bytes) :
    (decByte v ++ 0x2E :: rest).takeWhile (· != 0x2E) = decByte v := by
  have hdigits : ∀ c ∈ decByte v, (c != 0x2E) = true := fun c hc =>
    bne_iff_ne.mpr fun hdot => dot_notMem_numeral v.toNat (decByte_eq_numeral v ▸ hdot ▸ hc)
  rw [List.takeWhile_append_of_pos hdigits, List.takeWhile_cons_of_neg (by decide), List.append_nil]

/-- Strings of equally many bytes are read back byte by byte: up to the first dot, then past it. -/
theorem eq_of_dotted_eq : ∀ {a b : Bytes}, a.length = b.length → dotted a = dotted b → a = b
  | [], [], _, _ => rfl
  | [v], [v'], _, h => congrArg (fun x => [x]) (decByte_injective h)
  | v :: w :: rest, v' :: w' :: rest', hlen, h => by
    simp only [dotted] at h
    obtain rfl : v = v' := decByte_injective (by
      rw [← takeWhile_decByte_append v (dotted (w :: rest)), h, takeWhile_decByte_append])
    have htail := List.tail_eq_of_cons_eq (List.append_cancel_left h)
    rw [eq_of_dotted_eq (Nat.succ.inj hlen) htail]

/-- Settles O12: each byte's numeral is the library's (`decByte_eq_numeral`), the length is within that of DOTTED of any
bytes (`dotted_length`), and strings of equally many bytes are read back (`eq_of_dotted_eq`). -/
theorem dottedDecimalForm : Obligations.DottedDecimalForm := by
  refine ⟨fun a b c d => ⟨?_, dotted_length [a, b, c, d]⟩, fun a b ha hb => eq_of_dotted_eq (ha.trans hb.symm)⟩
  simp only [dotted, decByte_eq_numeral, List.append_assoc, List.cons_append, List.nil_append]

end Sys2Proof.Machine

/-! Proofs of the transport family: what DECTCP (O13), DECUDP (O14) and DECICMP (O15) leave, the dispatch of DECXPT on
PROTO (O16), and its agreement with the three operations (O17). -/

namespace Sys2Proof.Machine

open Sys2Proof

/-! ### The length check of the dispatch (R155) -/

/-- Each of the three numbers has its own minimum length, and no other number has one. -/
theorem transportTooShort_iff (proto : Byte) (n : Nat) :
    transportTooShort proto n = true ↔
      (proto = 1 ∧ n < 4) ∨ (proto = 6 ∧ n < 14) ∨ (proto = 17 ∧ n < 8) := by
  simp only [transportTooShort, Bool.or_eq_true, Bool.and_eq_true, beq_iff_eq, decide_eq_true_eq, or_assoc]

/-! ### The variant of each number (R94, R155) -/

theorem variantOf_icmp (b : Bytes) : variantOf 1 b = .icmp (icmpRecOf b) := rfl

theorem variantOf_tcp (b : Bytes) : variantOf 6 b = .tcp (tcpRecOf b) := rfl

theorem variantOf_udp (b : Bytes) : variantOf 17 b = .udp (udpRecOf b) := rfl

theorem variantOf_unknown {proto : Byte} (h1 : proto ≠ 1) (h6 : proto ≠ 6) (h17 : proto ≠ 17) (b : Bytes) :
    variantOf proto b = .unknown b := by
  rw [variantOf, if_neg h1, if_neg h6, if_neg h17]

section Transport

variable {s : State} {u : Du} (h : AtDu s u)

include h

/-! ### DECTCP (R160), DECUDP (R165), DECICMP (R170) -/

theorem exec_dectcp_fits (hlen : 14 ≤ u.buf.length) :
    exec .dectcp s = duLeaves s u 0x00 { Res.empty with tcp := some (tcpRecOf u.buf) } := by
  rw [exec_leaves rfl h (dectcp_answer _ u), if_neg (Nat.not_lt.mpr hlen), mkSt_ok]

theorem exec_dectcp_short (hlen : u.buf.length < 14) : exec .dectcp s = duLeaves s u 0x01 Res.empty := by
  rw [exec_leaves rfl h (dectcp_answer _ u), if_pos hlen, mkSt_truncatedFrame]

theorem exec_decudp_fits (hlen : 8 ≤ u.buf.length) :
    exec .decudp s = duLeaves s u 0x00 { Res.empty with udp := some (udpRecOf u.buf) } := by
  rw [exec_leaves rfl h (decudp_answer _ u), if_neg (Nat.not_lt.mpr hlen), mkSt_ok]

theorem exec_decudp_short (hlen : u.buf.length < 8) : exec .decudp s = duLeaves s u 0x01 Res.empty := by
  rw [exec_leaves rfl h (decudp_answer _ u), if_pos hlen, mkSt_truncatedFrame]

theorem exec_decicmp_fits (hlen : 4 ≤ u.buf.length) :
    exec .decicmp s = duLeaves s u 0x00 { Res.empty with icmp := some (icmpRecOf u.buf) } := by
  rw [exec_leaves rfl h (decicmp_answer _ u), if_neg (Nat.not_lt.mpr hlen), mkSt_ok]

theorem exec_decicmp_short (hlen : u.buf.length < 4) : exec .decicmp s = duLeaves s u 0x01 Res.empty := by
  rw [exec_leaves rfl h (decicmp_answer _ u), if_pos hlen, mkSt_truncatedFrame]

/-! ### DECXPT (R155) -/

/-- No length check of R155 fails. -/
theorem exec_decxpt_fits (hfits : ¬transportTooShort u.proto u.buf.length = true) :
    exec .decxpt s = duLeaves s u 0x00 (Res.empty.withVariant (variantOf u.proto u.buf)) := by
  rw [exec_leaves rfl h (decxpt_answer _ u), if_neg hfits, mkSt_ok]

/-- The length check of R155 for this number fails. -/
theorem exec_decxpt_short
    (hshort : (u.proto = 1 ∧ u.buf.length < 4) ∨ (u.proto = 6 ∧ u.buf.length < 14) ∨
      (u.proto = 17 ∧ u.buf.length < 8)) :
    exec .decxpt s = duLeaves s u 0x01 Res.empty := by
  rw [exec_leaves rfl h (decxpt_answer _ u), if_pos ((transportTooShort_iff _ _).mpr hshort), mkSt_truncatedFrame]

theorem exec_decxpt_icmp (hp : u.proto = 1) (hlen : 4 ≤ u.buf.length) :
    exec .decxpt s = duLeaves s u 0x00 { Res.empty with icmp := some (icmpRecOf u.buf), xpt := some .icmp } := by
  rw [exec_decxpt_fits h (by rw [transportTooShort_iff, hp]; simpa using hlen), hp, variantOf_icmp, Res.withVariant]

theorem exec_decxpt_tcp (hp : u.proto = 6) (hlen : 14 ≤ u.buf.length) :
    exec .decxpt s = duLeaves s u 0x00 { Res.empty with tcp := some (tcpRecOf u.buf), xpt := some .tcp } := by
  rw [exec_decxpt_fits h (by rw [transportTooShort_iff, hp]; simpa using hlen), hp, variantOf_tcp, Res.withVariant]

theorem exec_decxpt_udp (hp : u.proto = 17) (hlen : 8 ≤ u.buf.length) :
    exec .decxpt s = duLeaves s u 0x00 { Res.empty with udp := some (udpRecOf u.buf), xpt := some .udp } := by
  rw [exec_decxpt_fits h (by rw [transportTooShort_iff, hp]; simpa using hlen), hp, variantOf_udp, Res.withVariant]

/-- Every other number takes a buffer of any length. -/
theorem exec_decxpt_unknown (h1 : u.proto ≠ 1) (h6 : u.proto ≠ 6) (h17 : u.proto ≠ 17) :
    exec .decxpt s = duLeaves s u 0x00 { Res.empty with unk := some u.buf, xpt := some .unknown } := by
  have hfits : ¬transportTooShort u.proto u.buf.length = true := by
    rw [transportTooShort_iff]
    rintro (⟨hp, -⟩ | ⟨hp, -⟩ | ⟨hp, -⟩)
    exacts [h1 hp, h6 hp, h17 hp]
  rw [exec_decxpt_fits h hfits, variantOf_unknown h1 h6 h17, Res.withVariant]

end Transport

/-- Settles O13: the statement's record is `tcpRecOf`, written out. -/
theorem dectcpDecodesTheHeader : Obligations.DectcpDecodesTheHeader :=
  fun _ _ h => ⟨exec_dectcp_fits h, exec_dectcp_short h⟩

/-- Settles O14: the statement's record is `udpRecOf`, written out. -/
theorem decudpDecodesTheHeader : Obligations.DecudpDecodesTheHeader :=
  fun _ _ h => ⟨exec_decudp_fits h, exec_decudp_short h⟩

/-- Settles O15: the statement's record is `icmpRecOf`, written out. -/
theorem decicmpDecodesTheHeader : Obligations.DecicmpDecodesTheHeader :=
  fun _ _ h => ⟨exec_decicmp_fits h, exec_decicmp_short h⟩

/-- Settles O16: one clause for each variant, and the length check that fails. -/
theorem decxptDispatchesOnProto : Obligations.DecxptDispatchesOnProto :=
  fun _ _ h =>
    ⟨exec_decxpt_icmp h, exec_decxpt_tcp h, exec_decxpt_udp h, exec_decxpt_unknown h, exec_decxpt_short h⟩

/-- Two operations that check the same minimum length `k`, and of which the second adds a tag to what the first leaves,
agree on a buffer of any length; a failing one leaves no tag. -/
theorem decxpt_adds_tag {s : State} {u : Du} {i : Instr} {tag : XptTag} {res : Res} (k : Nat)
    (hshort : u.buf.length < k →
      exec i s = duLeaves s u 0x01 Res.empty ∧ exec .decxpt s = duLeaves s u 0x01 Res.empty)
    (hfits : k ≤ u.buf.length →
      exec i s = duLeaves s u 0x00 res ∧ exec .decxpt s = duLeaves s u 0x00 { res with xpt := some tag }) :
    ∃ st res, exec i s = duLeaves s u st res ∧
      exec .decxpt s = duLeaves s u st { res with xpt := if st = 0x00 then some tag else none } := by
  rcases Nat.lt_or_ge u.buf.length k with hlen | hlen
  · exact ⟨0x01, Res.empty, hshort hlen⟩
  · exact ⟨0x00, res, hfits hlen⟩

/-- Settles O17: for each of the three numbers the dispatch and the variant's own operation check the same length and
leave the same record. -/
theorem decxptEqualsTheVariantOperation : Obligations.DecxptEqualsTheVariantOperation := by
  rintro s u i tag h (⟨hp, rfl, rfl⟩ | ⟨hp, rfl, rfl⟩ | ⟨hp, rfl, rfl⟩)
  · exact decxpt_adds_tag 4
      (fun hlen => ⟨exec_decicmp_short h hlen, exec_decxpt_short h (.inl ⟨hp, hlen⟩)⟩)
      (fun hlen => ⟨exec_decicmp_fits h hlen, exec_decxpt_icmp h hp hlen⟩)
  · exact decxpt_adds_tag 14
      (fun hlen => ⟨exec_dectcp_short h hlen, exec_decxpt_short h (.inr (.inl ⟨hp, hlen⟩))⟩)
      (fun hlen => ⟨exec_dectcp_fits h hlen, exec_decxpt_tcp h hp hlen⟩)
  · exact decxpt_adds_tag 8
      (fun hlen => ⟨exec_decudp_short h hlen, exec_decxpt_short h (.inr (.inr ⟨hp, hlen⟩))⟩)
      (fun hlen => ⟨exec_decudp_fits h hlen, exec_decxpt_udp h hp hlen⟩)

end Sys2Proof.Machine

/-! Proofs of the payload family: DECPAY reads exactly the concatenations of R186's patterns (O18), and an ASCII buffer is
one of them (O19). The machine's table and the statement's `Utf8Pattern` are compared pattern by pattern, each way:
`fits_of_utf8Pattern` and `utf8Pattern_of_fits`. -/

namespace Sys2Proof.Machine

open Sys2Proof

/-! ### Rows of the table (R186) -/

theorem inRange_iff (r : Byte × Byte) (v : Byte) :
    inRange r v = true ↔ r.1.toNat ≤ v.toNat ∧ v.toNat ≤ r.2.toNat := by
  rw [inRange, Bool.and_eq_true, decide_eq_true_eq, decide_eq_true_eq]

/-- A byte sequence fits a row: as many bytes as the row has ranges, each in its own. -/
def Utf8Row.Fits (r : Utf8Row) (p : Bytes) : Prop := List.Forall₂ (fun q v => inRange q v = true) (r.first :: r.rest) p

/-- `takeRanges` splits off exactly the bytes that lie in the ranges. -/
theorem takeRanges_eq_some_iff {rs : List (Byte × Byte)} {b p rest : Bytes} :
    takeRanges rs b = some (p, rest) ↔ List.Forall₂ (fun q v => inRange q v = true) rs p ∧ b = p ++ rest := by
  induction rs generalizing b p with
  | nil => cases p <;> simp [takeRanges, @eq_comm _ b]
  | cons r rs ih =>
    cases b with
    | nil => cases p <;> simp [takeRanges]
    | cons v b =>
      cases p with
      | nil => simp [takeRanges]
      | cons w p =>
        by_cases hv : inRange r v = true
        · simp only [takeRanges, hv, if_true, Option.map_eq_some_iff, Prod.exists, Prod.mk.injEq, List.cons.injEq,
            List.forall₂_cons, List.cons_append]
          constructor
          · rintro ⟨p', rest', h, ⟨rfl, rfl⟩, rfl⟩
            exact ⟨⟨hv, (ih.mp h).1⟩, rfl, (ih.mp h).2⟩
          · rintro ⟨⟨-, hf⟩, rfl, h⟩
            exact ⟨p, rest, ih.mpr ⟨hf, h⟩, ⟨rfl, rfl⟩, rfl⟩
        · simp only [takeRanges, hv, List.forall₂_cons, List.cons_append, List.cons.injEq]
          constructor
          · simp
          · rintro ⟨⟨hw, -⟩, rfl, -⟩
            exact absurd hw hv

/-- "The patterns have distinct first-byte ranges": they even ascend (R186). -/
theorem utf8Rows_ascend : utf8Rows.Pairwise fun r r' => r.first.2.toNat < r'.first.1.toNat := by decide

/-- Among rows with ascending first-byte ranges, the row that a first byte lies in is the one found. -/
theorem find?_first_of_mem {rows : List Utf8Row} (hrows : rows.Pairwise fun r r' => r.first.2.toNat < r'.first.1.toNat)
    {r : Utf8Row} (hr : r ∈ rows) {v : Byte} (hv : inRange r.first v = true) :
    rows.find? (fun r => inRange r.first v) = some r := by
  induction hrows with
  | nil => cases hr
  | @cons r₀ rows hlt _ ih =>
    rcases List.mem_cons.mp hr with rfl | hmem
    · exact List.find?_cons_of_pos (p := fun r : Utf8Row => inRange r.first v) hv
    · have hmiss : ¬inRange r₀.first v = true := by
        rw [inRange_iff] at hv ⊢
        have := hlt r hmem
        omega
      exact (List.find?_cons_of_neg (p := fun r : Utf8Row => inRange r.first v) hmiss).trans (ih hmem)

/-- `utf8Next` splits off exactly a sequence that fits a row. -/
theorem utf8Next_eq_some_iff {v : Byte} {b p rest : Bytes} :
    utf8Next v b = some (p, rest) ↔ (∃ r ∈ utf8Rows, r.Fits p) ∧ v :: b = p ++ rest := by
  constructor
  · intro h
    unfold utf8Next at h
    split at h
    · cases h
    · rename_i r hr
      simp only [Option.map_eq_some_iff, Prod.exists, Prod.mk.injEq] at h
      obtain ⟨q, rest', hq, rfl, rfl⟩ := h
      obtain ⟨hfits, rfl⟩ := takeRanges_eq_some_iff.mp hq
      have hv : inRange r.first v = true := List.find?_some (p := fun r : Utf8Row => inRange r.first v) hr
      exact ⟨⟨r, List.mem_of_find?_eq_some hr, .cons hv hfits⟩, rfl⟩
  · rintro ⟨⟨r, hr, hfits⟩, hb⟩
    cases hfits with
    | @cons _ w _ q hw hq =>
      obtain ⟨rfl, htail⟩ := List.cons.inj hb
      simp only [utf8Next, find?_first_of_mem utf8Rows_ascend hr hw, takeRanges_eq_some_iff.mpr ⟨hq, htail⟩,
        Option.map_some]

/-! ### Patterns and rows, by length (R186) -/

theorem fits_nil : ¬∃ r ∈ utf8Rows, r.Fits [] := by simp [Utf8Row.Fits]

theorem fits_one_iff (x : Byte) : (∃ r ∈ utf8Rows, r.Fits [x]) ↔ x.toNat ≤ 0x7F := by
  simp [utf8Rows, Utf8Row.Fits, inRange]

theorem fits_two_iff (x y : Byte) :
    (∃ r ∈ utf8Rows, r.Fits [x, y]) ↔ (0xC2 ≤ x.toNat ∧ x.toNat ≤ 0xDF) ∧ (0x80 ≤ y.toNat ∧ y.toNat ≤ 0xBF) := by
  simp [utf8Rows, Utf8Row.Fits, inRange]

theorem fits_three_iff (x y z : Byte) :
    (∃ r ∈ utf8Rows, r.Fits [x, y, z]) ↔
      ((x.toNat = 0xE0 ∧ 0xA0 ≤ y.toNat ∧ y.toNat ≤ 0xBF) ∨
        (0xE1 ≤ x.toNat ∧ x.toNat ≤ 0xEC ∧ 0x80 ≤ y.toNat ∧ y.toNat ≤ 0xBF) ∨
        (x.toNat = 0xED ∧ 0x80 ≤ y.toNat ∧ y.toNat ≤ 0x9F) ∨
        (0xEE ≤ x.toNat ∧ x.toNat ≤ 0xEF ∧ 0x80 ≤ y.toNat ∧ y.toNat ≤ 0xBF)) ∧
      (0x80 ≤ z.toNat ∧ z.toNat ≤ 0xBF) := by
  simp only [utf8Rows, Utf8Row.Fits, inRange_iff, List.mem_cons, exists_eq_or_imp, exists_eq_left,
    List.not_mem_nil, List.forall₂_cons, List.forall₂_nil_left_iff, List.forall₂_nil_right_iff, reduceCtorEq,
    and_false, and_true, or_false, false_or, BitVec.reduceToNat]
  omega

theorem fits_four_iff (x y z w : Byte) :
    (∃ r ∈ utf8Rows, r.Fits [x, y, z, w]) ↔
      ((x.toNat = 0xF0 ∧ 0x90 ≤ y.toNat ∧ y.toNat ≤ 0xBF) ∨
        (0xF1 ≤ x.toNat ∧ x.toNat ≤ 0xF3 ∧ 0x80 ≤ y.toNat ∧ y.toNat ≤ 0xBF) ∨
        (x.toNat = 0xF4 ∧ 0x80 ≤ y.toNat ∧ y.toNat ≤ 0x8F)) ∧
      (0x80 ≤ z.toNat ∧ z.toNat ≤ 0xBF) ∧ (0x80 ≤ w.toNat ∧ w.toNat ≤ 0xBF) := by
  simp only [utf8Rows, Utf8Row.Fits, inRange_iff, List.mem_cons, exists_eq_or_imp, exists_eq_left,
    List.not_mem_nil, List.forall₂_cons, List.forall₂_nil_left_iff, List.forall₂_nil_right_iff, reduceCtorEq,
    and_false, and_true, or_false, false_or, BitVec.reduceToNat]
  omega

/-- No row has more than four ranges. -/
theorem fits_five (x y z w v : Byte) (p : Bytes) : ¬∃ r ∈ utf8Rows, r.Fits (x :: y :: z :: w :: v :: p) := by
  simp [utf8Rows, Utf8Row.Fits]

/-! ### Scalar values (R187): a mask of low bits takes off the pattern's marker -/

theorem and_07_toNat (v : Byte) : (v &&& 0x07).toNat = v.toNat % 8 := Nat.and_two_pow_sub_one_eq_mod _ 3
theorem and_0F_toNat (v : Byte) : (v &&& 0x0F).toNat = v.toNat % 16 := Nat.and_two_pow_sub_one_eq_mod _ 4
theorem and_1F_toNat (v : Byte) : (v &&& 0x1F).toNat = v.toNat % 32 := Nat.and_two_pow_sub_one_eq_mod _ 5
theorem and_3F_toNat (v : Byte) : (v &&& 0x3F).toNat = v.toNat % 64 := Nat.and_two_pow_sub_one_eq_mod _ 6

theorem utf8Scalar_two {x y : Byte} (hx : 0xC0 ≤ x.toNat ∧ x.toNat ≤ 0xDF) (hy : 0x80 ≤ y.toNat ∧ y.toNat ≤ 0xBF) :
    utf8Scalar [x, y] = (x.toNat - 0xC0) * 64 + (y.toNat - 0x80) := by
  simp only [utf8Scalar, and_1F_toNat, and_3F_toNat]
  omega

theorem utf8Scalar_three {x y z : Byte} (hx : 0xE0 ≤ x.toNat ∧ x.toNat ≤ 0xEF)
    (hy : 0x80 ≤ y.toNat ∧ y.toNat ≤ 0xBF) (hz : 0x80 ≤ z.toNat ∧ z.toNat ≤ 0xBF) :
    utf8Scalar [x, y, z] = (x.toNat - 0xE0) * 4096 + (y.toNat - 0x80) * 64 + (z.toNat - 0x80) := by
  simp only [utf8Scalar, and_0F_toNat, and_3F_toNat]
  omega

theorem utf8Scalar_four {x y z w : Byte} (hx : 0xF0 ≤ x.toNat ∧ x.toNat ≤ 0xF7)
    (hy : 0x80 ≤ y.toNat ∧ y.toNat ≤ 0xBF) (hz : 0x80 ≤ z.toNat ∧ z.toNat ≤ 0xBF)
    (hw : 0x80 ≤ w.toNat ∧ w.toNat ≤ 0xBF) :
    utf8Scalar [x, y, z, w] =
      (x.toNat - 0xF0) * 262144 + (y.toNat - 0x80) * 4096 + (z.toNat - 0x80) * 64 + (w.toNat - 0x80) := by
  simp only [utf8Scalar, and_07_toNat, and_3F_toNat]
  omega

/-- The patterns are stated over numbers: a number below 256 is the value of a byte. -/
theorem exists_byte {a : Nat} (h : a ≤ 0xFF) : ∃ x : Byte, a = x.toNat :=
  ⟨BitVec.ofNat 8 a, (Nat.mod_eq_of_lt (Nat.lt_succ_of_le h)).symm⟩

theorem ofNat_byte (x : Byte) : BitVec.ofNat 8 x.toNat = x := by rw [BitVec.ofNat_toNat, BitVec.setWidth_eq]

/-- The patterns of R186 with the values of R187 are the rows of the machine's table with the values it computes. -/
theorem fits_of_utf8Pattern {p : Bytes} {c : Nat} (h : Utf8Pattern p c) :
    (∃ r ∈ utf8Rows, r.Fits p) ∧ utf8Scalar p = c := by
  cases h with
  | one _ ha =>
    obtain ⟨x, rfl⟩ := exists_byte (by omega : c ≤ 0xFF)
    rw [ofNat_byte]
    exact ⟨(fits_one_iff x).mpr ha, rfl⟩
  | two a b ha hb =>
    obtain ⟨x, rfl⟩ := exists_byte (by omega : a ≤ 0xFF)
    obtain ⟨y, rfl⟩ := exists_byte (by omega : b ≤ 0xFF)
    rw [ofNat_byte, ofNat_byte]
    exact ⟨(fits_two_iff x y).mpr ⟨ha, hb⟩, utf8Scalar_two (by omega) hb⟩
  | three a b c hab hc =>
    obtain ⟨x, rfl⟩ := exists_byte (by omega : a ≤ 0xFF)
    obtain ⟨y, rfl⟩ := exists_byte (by omega : b ≤ 0xFF)
    obtain ⟨z, rfl⟩ := exists_byte (by omega : c ≤ 0xFF)
    rw [ofNat_byte, ofNat_byte, ofNat_byte]
    exact ⟨(fits_three_iff x y z).mpr ⟨hab, hc⟩, utf8Scalar_three (by omega) (by omega) hc⟩
  | four a b c d hab hc hd =>
    obtain ⟨x, rfl⟩ := exists_byte (by omega : a ≤ 0xFF)
    obtain ⟨y, rfl⟩ := exists_byte (by omega : b ≤ 0xFF)
    obtain ⟨z, rfl⟩ := exists_byte (by omega : c ≤ 0xFF)
    obtain ⟨w, rfl⟩ := exists_byte (by omega : d ≤ 0xFF)
    rw [ofNat_byte, ofNat_byte, ofNat_byte, ofNat_byte]
    exact ⟨(fits_four_iff x y z w).mpr ⟨hab, hc, hd⟩, utf8Scalar_four (by omega) (by omega) hc hd⟩

/-- A sequence that fits a row is one of R186's patterns. -/
theorem utf8Pattern_of_fits {p : Bytes} (h : ∃ r ∈ utf8Rows, r.Fits p) : ∃ c, Utf8Pattern p c := by
  match p with
  | [] => exact absurd h fits_nil
  | [x] =>
    have hp := Utf8Pattern.one _ ((fits_one_iff x).mp h)
    rw [ofNat_byte] at hp
    exact ⟨_, hp⟩
  | [x, y] =>
    obtain ⟨hx, hy⟩ := (fits_two_iff x y).mp h
    have hp := Utf8Pattern.two _ _ hx hy
    rw [ofNat_byte, ofNat_byte] at hp
    exact ⟨_, hp⟩
  | [x, y, z] =>
    obtain ⟨hxy, hz⟩ := (fits_three_iff x y z).mp h
    have hp := Utf8Pattern.three _ _ _ hxy hz
    rw [ofNat_byte, ofNat_byte, ofNat_byte] at hp
    exact ⟨_, hp⟩
  | [x, y, z, w] =>
    obtain ⟨hxy, hz, hw⟩ := (fits_four_iff x y z w).mp h
    have hp := Utf8Pattern.four _ _ _ _ hxy hz hw
    rw [ofNat_byte, ofNat_byte, ofNat_byte, ofNat_byte] at hp
    exact ⟨_, hp⟩
  | x :: y :: z :: w :: v :: p => exact absurd h (fits_five x y z w v p)

/-! ### Concatenations of patterns (R186, R187) -/

/-- A pattern in front of any bytes is read as its scalar value, and the bytes after it by themselves. -/
theorem utf8Go_append_pattern {p : Bytes} {c : Nat} (hp : Utf8Pattern p c) (fuel : Nat) (b : Bytes) :
    utf8Go (fuel + 1) (p ++ b) = (utf8Go fuel b).map fun cs => BitVec.ofNat 21 c :: cs := by
  obtain ⟨hfits, rfl⟩ := fits_of_utf8Pattern hp
  cases p with
  | nil => exact absurd hfits fits_nil
  | cons v q =>
    have hnext : utf8Next v (q ++ b) = some (v :: q, b) := utf8Next_eq_some_iff.mpr ⟨hfits, rfl⟩
    simp only [List.cons_append, utf8Go, hnext]

theorem length_pos_of_utf8Pattern {p : Bytes} {c : Nat} (hp : Utf8Pattern p c) : 1 ≤ p.length := by
  cases hp <;> simp

/-- With fuel for its bytes, a concatenation of patterns is read as their scalar values in order. -/
theorem utf8Go_of_utf8Text {b : Bytes} {cs : List Nat} (h : Utf8Text b cs) {fuel : Nat} (hfuel : b.length ≤ fuel) :
    utf8Go fuel b = some (cs.map (BitVec.ofNat 21)) := by
  induction h generalizing fuel with
  | nil => cases fuel <;> rfl
  | cons p c b cs hp _ ih =>
    have hpos := length_pos_of_utf8Pattern hp
    rw [List.length_append] at hfuel
    obtain ⟨n, rfl⟩ : ∃ n, fuel = n + 1 := ⟨fuel - 1, by omega⟩
    rw [utf8Go_append_pattern hp, ih (by omega), Option.map_some, List.map_cons]

/-- With any fuel, what is read at all is a concatenation of patterns. -/
theorem utf8Text_of_utf8Go {fuel : Nat} {b : Bytes} {ds : List (BitVec 21)} (h : utf8Go fuel b = some ds) :
    ∃ cs, Utf8Text b cs := by
  induction fuel generalizing b ds with
  | zero =>
    cases b with
    | nil => exact ⟨[], .nil⟩
    | cons v b => cases h
  | succ fuel ih =>
    cases b with
    | nil => exact ⟨[], .nil⟩
    | cons v b =>
      rw [utf8Go] at h
      split at h
      · cases h
      · rename_i p rest hnext
        obtain ⟨hfits, hb⟩ := utf8Next_eq_some_iff.mp hnext
        obtain ⟨ds', hrest, -⟩ := Option.map_eq_some_iff.mp h
        obtain ⟨c, hp⟩ := utf8Pattern_of_fits hfits
        obtain ⟨cs, hcs⟩ := ih hrest
        exact ⟨c :: cs, hb ▸ .cons p c rest cs hp hcs⟩

theorem decodeUtf8_of_utf8Text {b : Bytes} {cs : List Nat} (h : Utf8Text b cs) :
    decodeUtf8 b = some (cs.map (BitVec.ofNat 21)) :=
  utf8Go_of_utf8Text h le_rfl

theorem decodeUtf8_of_not_utf8Text {b : Bytes} (h : ¬∃ cs, Utf8Text b cs) : decodeUtf8 b = none :=
  Option.eq_none_iff_forall_ne_some.mpr fun _ hds => h (utf8Text_of_utf8Go hds)

/-! ### DECPAY (R185) -/

section Decpay

variable {s : State} {u : Du} (h : AtDu s u)

include h

theorem exec_decpay : exec .decpay s = duLeaves s u 0x00 (Res.empty.withText u.buf) := by
  rw [exec_leaves rfl h (decpay_answer _ u), mkSt_ok]

theorem exec_decpay_text {cs : List Nat} (htext : Utf8Text u.buf cs) :
    exec .decpay s = duLeaves s u 0x00 { Res.empty with
      txtTag := some .text, txtBytes := some u.buf, txtChars := some (cs.map (BitVec.ofNat 21)) } := by
  rw [exec_decpay h, Res.withText, decodeUtf8_of_utf8Text htext]

theorem exec_decpay_binary (hbin : ¬∃ cs, Utf8Text u.buf cs) :
    exec .decpay s = duLeaves s u 0x00 { Res.empty with txtTag := some .binary, txtBytes := some u.buf } := by
  rw [exec_decpay h, Res.withText, decodeUtf8_of_not_utf8Text hbin]

end Decpay

/-- Settles O18: what `decodeUtf8` reads is exactly the concatenations of patterns. -/
theorem decpayReadsExactlyUtf8 : Obligations.DecpayReadsExactlyUtf8 :=
  fun _ _ h => ⟨fun _ => exec_decpay_text h, exec_decpay_binary h⟩

/-- Each ASCII byte is a pattern of its own, of its own value. -/
theorem utf8Text_of_ascii {b : Bytes} (hascii : ∀ v ∈ b, v.toNat ≤ 0x7F) : Utf8Text b (b.map BitVec.toNat) := by
  induction b with
  | nil => exact .nil
  | cons v b ih =>
    obtain ⟨hv, hb⟩ := List.forall_mem_cons.mp hascii
    have hp := Utf8Pattern.one v.toNat hv
    rw [ofNat_byte] at hp
    exact .cons [v] v.toNat b _ hp (ih hb)

/-- Settles O19: an ASCII buffer is a concatenation of one-byte patterns. -/
theorem decpayAsciiIsText : Obligations.DecpayAsciiIsText := by
  intro s u h hascii
  have hchars : (u.buf.map BitVec.toNat).map (BitVec.ofNat 21) = u.buf.map fun v => v.setWidth 21 := by
    simp only [List.map_map, Function.comp_def, BitVec.ofNat_toNat]
  rw [← hchars]
  exact exec_decpay_text h (utf8Text_of_ascii hascii)

end Sys2Proof.Machine

/-! Proofs of the chain family: DISSECT layer by layer (O20 to O23), DISSECT against the operations issued by hand
(O24), what the `T` bit changes (O25), and the ST of every DU operation (O27). -/

namespace Sys2Proof.Machine

open Sys2Proof

/-! ### ST against the error table (R195, R241) -/

/-- The status byte of an answer (R23). -/
def DuAnswer.st (a : DuAnswer) : Byte := mkSt a.err a.elayer

/-- The status byte where one length check decides. -/
theorem DuAnswer.st_checked {c : Prop} [Decidable c] {e : Err} {l : Layer} {res res' : Res} :
    (if c then ⟨e, l, res⟩ else ⟨.ok, .notLayered, res'⟩ : DuAnswer).st = if c then mkSt e l else 0x00 := by
  split
  · rfl
  · exact mkSt_ok

/-- The status byte of a single-layer operation, by its one check. -/
theorem st_of_checked {c : Prop} [Decidable c] {x : Except Fault DuAnswer} {e : Err} {l : Layer} {res res' : Res}
    {a : DuAnswer} (hx : x = .ok (if c then ⟨e, l, res⟩ else ⟨.ok, .notLayered, res'⟩)) (h : x = .ok a) :
    a.st = if c then mkSt e l else 0x00 := by
  rw [← Except.ok.inj (hx.symm.trans h), DuAnswer.st_checked]

theorem saysIpv4_iff (b : Bytes) : saysIpv4 b = true ↔ b.getD 12 0 = 0x08 ∧ b.getD 13 0 = 0x00 := by
  simp only [saysIpv4, Bool.and_eq_true, beq_iff_eq]

/-- The chain and `dissectSt` test the same conditions in the same order. -/
theorem dissectChain_st {swap t : Bool} {b : Bytes} {a : DuAnswer} (h : dissectChain swap t b = .ok a) :
    a.st = dissectSt b := by
  rw [dissectChain_eq] at h
  cases h
  rw [dissectSt]
  split
  · exact mkSt_ethernet
  split
  next hno => rw [if_neg (mt (saysIpv4_iff b).mpr (Bool.eq_false_iff.mp hno)), DuAnswer.st, mkSt_ok]
  next hv4 =>
    rw [if_pos ((saysIpv4_iff b).mp (Bool.eq_true_of_not_eq_false hv4))]
    change _ = if ipv4TooShort (b.drop 14) then 0x11
      else if transportTooShort (ip4RecOf (b.drop 14)).protocol (chainP2 b).length then 0x19 else 0x00
    split
    · exact mkSt_ipv4
    · rw [DuAnswer.st_checked, mkSt_transport]

/-- Each operation's answer carries the ST of its row. -/
theorem duBody_st {swap : Bool} {i : Instr} {u : Du} {a : DuAnswer} (hi : i.unit = .du)
    (h : duBody swap i u = .ok a) : a.st = expectedSt i u.proto u.buf := by
  cases i with
  | fmtaddr => rw [st_of_checked (fmtaddr_answer swap u) h, mkSt_malformedAddress, expectedSt]
  | deceth => rw [st_of_checked (deceth_answer swap u) h, mkSt_truncatedFrame, expectedSt]
  | decip4 => rw [st_of_checked (decip4_answer swap u) h, mkSt_truncatedFrame, expectedSt]
  | decxpt => rw [st_of_checked (decxpt_answer swap u) h, mkSt_truncatedFrame, expectedSt]
  | dectcp => rw [st_of_checked (dectcp_answer swap u) h, mkSt_truncatedFrame, expectedSt]
  | decudp => rw [st_of_checked (decudp_answer swap u) h, mkSt_truncatedFrame, expectedSt]
  | decicmp => rw [st_of_checked (decicmp_answer swap u) h, mkSt_truncatedFrame, expectedSt]
  | decpay =>
    cases h
    exact mkSt_ok
  | dissect t => exact dissectChain_st h
  | cwopen | cwwrite | cwclose => cases hi

/-- Settles O27: every operation answers (`duBody_answers`), with the ST of its row (`duBody_st`). -/
theorem duStatusFollowsTheErrorTable : Obligations.DuStatusFollowsTheErrorTable := by
  intro i s u hi h
  obtain ⟨a, ha⟩ := duBody_answers s.cfg.etypeSwap i u
  exact ⟨a.res, duBody_st hi ha ▸ exec_leaves hi h ha⟩

/-! ### DISSECT, by the layer at which it ends (R195, R198, R199) -/

theorem not_ipv4TooShort {b : Bytes} (hlen : 20 ≤ b.length) (hhl : ihlBytes b ≤ b.length) :
    ¬ipv4TooShort b = true := by
  rw [ipv4TooShort_iff]
  omega

/-- With `T = 1` layer 4 reads the payload of the variant. -/
theorem textLayer_true {v : Variant} {pay : Bytes} (hpay : v.textPayload = some pay) (res : Res) :
    textLayer true v res = res.withText pay := by
  simp only [textLayer, hpay]

theorem textLayer_none {v : Variant} (hpay : v.textPayload = none) (t : Bool) (res : Res) :
    textLayer t v res = res := by
  cases t <;> simp only [textLayer, hpay]

section Dissect

variable {s : State} {u : Du} {t : Bool} (h : AtDu s u)

include h

/-- DISSECT leaves the chain's answer. -/
theorem exec_dissect_leaves {a : DuAnswer} (ha : dissectChain s.cfg.etypeSwap t u.buf = .ok a) :
    exec (.dissect t) s = duLeaves s u (mkSt a.err a.elayer) a.res :=
  exec_leaves rfl h ha

theorem exec_dissect_ethernetShort (hlen : u.buf.length < 14) :
    exec (.dissect t) s = duLeaves s u 0x09 Res.chainStart := by
  rw [exec_dissect_leaves h (dissectChain_eq _ t u.buf), if_pos hlen, mkSt_ethernet]

variable (hlen : 14 ≤ u.buf.length)

include hlen

theorem exec_dissect_notIpv4 (hv4 : saysIpv4 u.buf = false) :
    exec (.dissect t) s = duLeaves s u 0x00 (chainRes1 s.cfg.etypeSwap u.buf) := by
  rw [exec_dissect_leaves h (dissectChain_eq _ t u.buf), if_neg (Nat.not_lt.mpr hlen), if_pos hv4, mkSt_ok]

variable (hv4 : saysIpv4 u.buf = true)

include hv4

theorem exec_dissect_ipv4Short (hip : ipv4TooShort (u.buf.drop 14) = true) :
    exec (.dissect t) s = duLeaves s u 0x11 (chainRes1 s.cfg.etypeSwap u.buf) := by
  rw [exec_dissect_leaves h (dissectChain_eq _ t u.buf), if_neg (Nat.not_lt.mpr hlen), if_neg (by simp [hv4]),
    if_pos hip, mkSt_ipv4]

variable (hip : ¬ipv4TooShort (u.buf.drop 14) = true)

include hip

theorem exec_dissect_transportShort
    (hxpt : transportTooShort (ip4RecOf (u.buf.drop 14)).protocol (chainP2 u.buf).length = true) :
    exec (.dissect t) s = duLeaves s u 0x19 (chainRes2 s.cfg.etypeSwap u.buf) := by
  rw [exec_dissect_leaves h (dissectChain_eq _ t u.buf), if_neg (Nat.not_lt.mpr hlen), if_neg (by simp [hv4]),
    if_neg hip, if_pos hxpt, mkSt_transport]

/-- Layers 1 to 3 succeed, and the variant of layer 3 is `v`. -/
theorem exec_dissect_decoded {v : Variant} (hv : chainVariant u.buf = v)
    (hxpt : ¬transportTooShort (ip4RecOf (u.buf.drop 14)).protocol (chainP2 u.buf).length = true) :
    exec (.dissect t) s =
      duLeaves s u 0x00 (textLayer t v ((chainRes2 s.cfg.etypeSwap u.buf).withVariant v)) := by
  rw [exec_dissect_leaves h (dissectChain_eq _ t u.buf), if_neg (Nat.not_lt.mpr hlen), if_neg (by simp [hv4]),
    if_neg hip, if_neg hxpt, mkSt_ok, hv]

/-- With `T = 0` the records of layers 1 to 3 stand as they are; with `T = 1` the text of the transport payload is added
to them (R200). -/
theorem exec_dissect_text {v : Variant} {pay : Bytes} {res : Res} (hv : chainVariant u.buf = v)
    (hxpt : ¬transportTooShort (ip4RecOf (u.buf.drop 14)).protocol (chainP2 u.buf).length = true)
    (hpay : v.textPayload = some pay) (hres : (chainRes2 s.cfg.etypeSwap u.buf).withVariant v = res) :
    exec (.dissect false) s = duLeaves s u 0x00 res ∧
      (∀ cs, decodeUtf8 pay = some cs → exec (.dissect true) s =
        duLeaves s u 0x00 { res with txtTag := some .text, txtBytes := some pay, txtChars := some cs }) ∧
      (decodeUtf8 pay = none → exec (.dissect true) s =
        duLeaves s u 0x00 { res with txtTag := some .binary, txtBytes := some pay }) := by
  have htrue : exec (.dissect true) s = duLeaves s u 0x00 (res.withText pay) := by
    rw [exec_dissect_decoded h hlen hv4 hip hv hxpt, hres, textLayer_true hpay]
  refine ⟨?_, fun cs hcs => ?_, fun hbin => ?_⟩
  · rw [exec_dissect_decoded h hlen hv4 hip hv hxpt, hres]
    rfl
  · rw [htrue, Res.withText, hcs]
  · rw [htrue, Res.withText, hbin]

end Dissect

/-- Settles O20: the record is that of layer 1. -/
theorem dissectStopsAtNonIpv4 : Obligations.DissectStopsAtNonIpv4 := by
  intro s u t h hlen hno
  exact exec_dissect_notIpv4 h hlen (Bool.eq_false_iff.mpr (mt (saysIpv4_iff _).mp hno))

/-- Settles O21: one clause for each layer whose length check fails. -/
theorem dissectErrorKeepsOuterRecords : Obligations.DissectErrorKeepsOuterRecords := by
  rintro s u t _ h rfl
  refine ⟨exec_dissect_ethernetShort h, fun hlen h12 h13 hshort => ?_, fun hlen h12 h13 h20 hhl hshort => ?_⟩
  · exact exec_dissect_ipv4Short h hlen ((saysIpv4_iff _).mpr ⟨h12, h13⟩) ((ipv4TooShort_iff _).mpr hshort)
  · rw [← List.length_drop] at hshort
    exact exec_dissect_transportShort h hlen ((saysIpv4_iff _).mpr ⟨h12, h13⟩) (not_ipv4TooShort h20 hhl)
      ((transportTooShort_iff _ _).mpr hshort)

/-- Settles O22: the variant UNKNOWN is made of a payload of any length, and it has no text for layer 4 to read. -/
theorem dissectUnknownProtocol : Obligations.DissectUnknownProtocol := by
  rintro s u t _ h rfl hlen h12 h13 h20 hhl h1 h6 h17
  have hxpt : ¬transportTooShort (ip4RecOf (u.buf.drop 14)).protocol (chainP2 u.buf).length = true := by
    rw [transportTooShort_iff]
    rintro (⟨hp, -⟩ | ⟨hp, -⟩ | ⟨hp, -⟩)
    exacts [h1 hp, h6 hp, h17 hp]
  have hv : chainVariant u.buf = .unknown (chainP2 u.buf) := variantOf_unknown h1 h6 h17 _
  rw [exec_dissect_decoded h hlen ((saysIpv4_iff _).mpr ⟨h12, h13⟩) (not_ipv4TooShort h20 hhl) hv hxpt]
  cases t <;> rfl

/-- Settles O23: for each of the three numbers the variant has a payload, whose text is that of `exec_dissect_text`. -/
theorem dissectDecodesEveryLayer : Obligations.DissectDecodesEveryLayer := by
  rintro s u _ _ res pay h rfl hlen h12 h13 h20 hhl rfl hlisted
  have hdissect := @exec_dissect_text s u h hlen ((saysIpv4_iff _).mpr ⟨h12, h13⟩) (not_ipv4TooShort h20 hhl)
  obtain ⟨(hp : (ip4RecOf _).protocol = 1), (hmin : 4 ≤ (chainP2 u.buf).length), rfl, rfl⟩ |
    ⟨(hp : (ip4RecOf _).protocol = 6), (hmin : 14 ≤ (chainP2 u.buf).length), rfl, rfl⟩ |
    ⟨(hp : (ip4RecOf _).protocol = 17), (hmin : 8 ≤ (chainP2 u.buf).length), rfl, rfl⟩ := hlisted
  · exact hdissect (by rw [chainVariant, hp, variantOf_icmp])
      (by rw [hp, transportTooShort_iff]; simpa using hmin) rfl rfl
  · exact hdissect (by rw [chainVariant, hp, variantOf_tcp])
      (by rw [hp, transportTooShort_iff]; simpa using hmin) rfl rfl
  · exact hdissect (by rw [chainVariant, hp, variantOf_udp])
      (by rw [hp, transportTooShort_iff]; simpa using hmin) rfl rfl

/-! ### The `T` bit (R200) -/

theorem Res.withText_withoutText (res : Res) (b : Bytes) : (res.withText b).withoutText = res.withoutText := by
  unfold Res.withText
  split <;> rfl

theorem textLayer_withoutText (t : Bool) (v : Variant) (res : Res) :
    (textLayer t v res).withoutText = res.withoutText := by
  unfold textLayer
  split
  · exact Res.withText_withoutText res _
  · rfl

/-- The chain looks at `T` in layer 4 alone, which cannot fail. -/
theorem dissectChain_withoutText {swap t t' : Bool} {b : Bytes} {a a' : DuAnswer} (h : dissectChain swap t b = .ok a)
    (h' : dissectChain swap t' b = .ok a') : a.st = a'.st ∧ a.res.withoutText = a'.res.withoutText := by
  refine ⟨(dissectChain_st h).trans (dissectChain_st h').symm, ?_⟩
  rw [dissectChain_eq] at h h'
  cases h
  cases h'
  split
  · rfl
  split
  · rfl
  split
  · rfl
  split
  · rfl
  · rw [textLayer_withoutText, textLayer_withoutText]

/-- Settles O25: the two answers agree but for the text fields (`dissectChain_withoutText`). -/
theorem textBitChangesOnlyText : Obligations.TextBitChangesOnlyText := by
  intro s u h
  obtain ⟨a, ha⟩ := duBody_answers s.cfg.etypeSwap (.dissect false) u
  obtain ⟨a', ha'⟩ := duBody_answers s.cfg.etypeSwap (.dissect true) u
  obtain ⟨hst, hres⟩ := dissectChain_withoutText ha ha'
  exact ⟨a.st, a.res, a'.res, exec_leaves rfl h ha, hst ▸ exec_leaves rfl h ha', hres⟩

/-! ### Operations issued by hand (R202) -/

section ByHand

variable {s : State} {u : Du} (hu : s.dus[s.sel]? = some u)

include hu

/-- An operation issued by hand delivers its answer on the operands loaded for it. -/
theorem byHand_eq {i : Instr} {b : Bytes} {p : Byte} {a : DuAnswer} (hi : i.unit = .du)
    (hb : b.length ≤ s.cfg.maxFrameLen) (ha : duBody s.cfg.etypeSwap i { u with buf := b, proto := p } = .ok a) :
    byHand i b p s = some (a.st, a.res) := by
  have hload : (s.setDu s.sel { u with buf := b, proto := p }).dus[s.sel]? = some { u with buf := b, proto := p } :=
    setDu_get hu
  have hexec := exec_leaves (s := s.setDu s.sel { u with buf := b, proto := p }) hi ⟨hload, hb⟩ ha
  simp only [byHand, hu, hexec, duLeaves]
  rw [State.setDu_sel, setDu_get hload]
  rfl

variable {b : Bytes} (hb : b.length ≤ s.cfg.maxFrameLen)

include hb

theorem byHand_deceth (p : Byte) :
    byHand .deceth b p s = some (if b.length < 14 then (0x01, Res.empty)
      else (0x00, { Res.empty with eth := some (ethRecOf s.cfg.etypeSwap b) })) := by
  rw [byHand_eq hu rfl hb (deceth_answer _ _)]
  split <;> simp only [DuAnswer.st, mkSt_truncatedFrame, mkSt_ok]

theorem byHand_decip4 (p : Byte) :
    byHand .decip4 b p s = some (if ipv4TooShort b then (0x01, Res.empty)
      else (0x00, { Res.empty with ip4 := some (ip4RecOf b) })) := by
  rw [byHand_eq hu rfl hb (decip4_answer _ _)]
  split <;> simp only [DuAnswer.st, mkSt_truncatedFrame, mkSt_ok]

theorem byHand_decxpt (p : Byte) :
    byHand .decxpt b p s = some (if transportTooShort p b.length then (0x01, Res.empty)
      else (0x00, Res.empty.withVariant (variantOf p b))) := by
  rw [byHand_eq hu rfl hb (decxpt_answer _ _)]
  split <;> simp only [DuAnswer.st, mkSt_truncatedFrame, mkSt_ok]

theorem byHand_decpay (p : Byte) : byHand .decpay b p s = some (0x00, Res.empty.withText b) := by
  rw [byHand_eq hu rfl hb (decpay_answer _ _), DuAnswer.st, mkSt_ok]

end ByHand

/-! ### The records put together by hand (R202) -/

/-- The transport record an operation by hand wrote has the payload that layer 4 reads. -/
theorem transportPayload_withVariant (v : Variant) : (Res.empty.withVariant v).transportPayload = v.textPayload := by
  cases v <;> rfl

/-- The host copies the transport fields of DECXPT into a RES that holds none yet. -/
theorem withVariant_by_hand {res : Res} (htcp : res.tcp = none) (hudp : res.udp = none) (hicmp : res.icmp = none)
    (hunk : res.unk = none) (v : Variant) :
    { res with
      tcp := (Res.empty.withVariant v).tcp, udp := (Res.empty.withVariant v).udp
      icmp := (Res.empty.withVariant v).icmp, unk := (Res.empty.withVariant v).unk
      xpt := (Res.empty.withVariant v).xpt } = res.withVariant v := by
  cases v <;> simp [Res.withVariant, Res.empty, htcp, hudp, hicmp, hunk]

/-- The host copies the text fields of DECPAY into a RES that holds no scalar values yet. -/
theorem withText_by_hand {res : Res} (hchars : res.txtChars = none) (b : Bytes) :
    { res with
      txtTag := (Res.empty.withText b).txtTag, txtBytes := (Res.empty.withText b).txtBytes
      txtChars := (Res.empty.withText b).txtChars } = res.withText b := by
  cases hb : decodeUtf8 b <;> simp [Res.withText, Res.empty, hb, hchars]

/-- The two bytes as the host looks at them in the frame. -/
theorem ethertypeBytes_iff {b : Bytes} (hlen : 14 ≤ b.length) :
    b[12]? ≠ some 0x08 ∨ b[13]? ≠ some 0x00 ↔ saysIpv4 b = false := by
  have h12 : b[12]? = some (b.getD 12 0) := by rw [List.getD_eq_getElem b 0 (by omega), List.getElem?_eq_getElem]
  have h13 : b[13]? = some (b.getD 13 0) := by rw [List.getD_eq_getElem b 0 (by omega), List.getElem?_eq_getElem]
  rw [← Bool.not_eq_true, saysIpv4_iff, not_and_or, h12, h13, ne_eq, ne_eq, Option.some.injEq, Option.some.injEq]

/-- A transport payload is a part of the buffer the variant was made of. -/
theorem textPayload_variantOf_length {proto : Byte} {b p : Bytes} (h : (variantOf proto b).textPayload = some p) :
    p.length ≤ b.length := by
  obtain ⟨k, rfl⟩ : ∃ k, b.drop k = p := by
    unfold variantOf at h
    split at h
    · exact ⟨_, Option.some.inj h⟩
    split at h
    · exact ⟨_, Option.some.inj h⟩
    split at h
    · exact ⟨_, Option.some.inj h⟩
    · cases h
  exact (List.drop_sublist _ _).length_le

theorem ethRecOf_payload (swap : Bool) (b : Bytes) : (ethRecOf swap b).payload = b.drop 14 := rfl

/-- The manual chain obtains what DISSECT answers: both go through the same checks, layer by layer. -/
theorem manualChain_eq {s : State} {u : Du} {t : Bool} {b : Bytes} (hu : s.dus[s.sel]? = some u)
    (hb : b.length ≤ s.cfg.maxFrameLen) {a : DuAnswer} (ha : dissectChain s.cfg.etypeSwap t b = .ok a) :
    manualChain t b s = some (a.st, a.res) := by
  have hb1 : (b.drop 14).length ≤ s.cfg.maxFrameLen := (List.drop_sublist _ _).length_le.trans hb
  have hb2 : (chainP2 b).length ≤ s.cfg.maxFrameLen := (List.drop_sublist _ _).length_le.trans hb1
  have hpayload : (ip4RecOf (b.drop 14)).payload = chainP2 b := rfl
  have hvariant : variantOf (ip4RecOf (b.drop 14)).protocol (chainP2 b) = chainVariant b := rfl
  rw [dissectChain_eq] at ha
  cases ha
  rw [manualChain, byHand_deceth hu hb]
  by_cases hlen : b.length < 14
  · rw [if_pos hlen, if_pos hlen, DuAnswer.st, mkSt_ethernet]
    rfl
  simp only [if_neg hlen, Option.bind_eq_bind, Option.bind_some, ne_eq, not_true_eq_false, if_false, ethRecOf_payload]
  by_cases hv4 : saysIpv4 b = false
  · rw [if_pos ((ethertypeBytes_iff (Nat.not_lt.mp hlen)).mpr hv4), if_pos hv4, DuAnswer.st, mkSt_ok]
    rfl
  rw [if_neg (mt (ethertypeBytes_iff (Nat.not_lt.mp hlen)).mp hv4), if_neg hv4, byHand_decip4 hu hb1]
  by_cases hip : ipv4TooShort (b.drop 14) = true
  · rw [if_pos hip, if_pos hip, DuAnswer.st, mkSt_ipv4]
    rfl
  simp only [if_neg hip, Option.bind_some, not_true_eq_false, if_false, hpayload]
  rw [byHand_decxpt hu hb2]
  by_cases hxpt : transportTooShort (ip4RecOf (b.drop 14)).protocol (chainP2 b).length = true
  · rw [if_pos hxpt, if_pos hxpt, DuAnswer.st, mkSt_transport]
    rfl
  simp only [if_neg hxpt, Option.bind_some, not_true_eq_false, if_false, hvariant, transportPayload_withVariant,
    DuAnswer.st, mkSt_ok]
  have hrecords := withVariant_by_hand (res := chainRes2 s.cfg.etypeSwap b) rfl rfl rfl rfl (chainVariant b)
  cases t with
  | false => exact congrArg (fun r => some (0x00, r)) hrecords
  | true =>
    cases hpay : (chainVariant b).textPayload with
    | none =>
      rw [textLayer_none hpay]
      exact congrArg (fun r => some (0x00, r)) hrecords
    | some p =>
      have hp : p.length ≤ s.cfg.maxFrameLen := (textPayload_variantOf_length hpay).trans hb2
      simp only [byHand_decpay hu hp, Option.bind_some, textLayer_true hpay]
      have htext := withText_by_hand (Res.withVariant_txtChars (chainRes2 s.cfg.etypeSwap b) (chainVariant b)) p
      rw [← hrecords] at htext ⊢
      exact congrArg (fun r => some (0x00, r)) htext

/-- Settles O24: DISSECT leaves its answer, and the manual chain obtains the same (`manualChain_eq`). -/
theorem dissectEqualsTheManualChain : Obligations.DissectEqualsTheManualChain := by
  intro s u t h
  obtain ⟨a, ha⟩ := duBody_answers s.cfg.etypeSwap (.dissect t) u
  exact ⟨a.st, a.res, manualChain_eq h.1 h.2 ha, exec_leaves rfl h ha⟩

end Sys2Proof.Machine

/-! Proofs of the capture writer family: what CWOPEN (O37, O38), CWWRITE (O39, O41, O42) and CWCLOSE (O43) leave for the
answers the sink gives, and a presented sink waiting for the next CWOPEN (O59). -/

namespace Sys2Proof.Machine

open Sys2Proof

/-! ### A failing sink write (R58) -/

/-- An answer that names fewer bytes than were given keeps that many. -/
theorem sinkWrite_fail_lt {bs : Bytes} {s : State} {k : Nat} {as : List SinkAnswer} (hk : k < bs.length)
    (h : s.env.answers = .fail k :: as) :
    sinkWrite bs s = (false, { s with
      sink := s.sink ++ bs.take k, env := { s.env with answers := as, answersUsed := s.env.answersUsed + 1 } }) := by
  rw [sinkWrite_fail (List.ne_nil_of_length_pos (Nat.zero_lt_of_lt hk)) h, Nat.min_eq_left (Nat.le_sub_one_of_lt hk)]

/-! ### CWOPEN (R210, R211, R213) -/

/-- The 24 bytes of R211, one by one, in the file's byte order. -/
theorem globalHeader_bytes (big : Bool) (l : BitVec 32) :
    globalHeader big l =
      if big then
        [0xA1, 0xB2, 0xC3, 0xD4, 0x00, 0x02, 0x00, 0x04, 0x00, 0x00, 0x00, 0x00, 0x00, 0x00, 0x00, 0x00,
          0x00, 0x00, 0xFF, 0xFF, l.extractLsb' 24 8, l.extractLsb' 16 8, l.extractLsb' 8 8, l.extractLsb' 0 8]
      else
        [0xD4, 0xC3, 0xB2, 0xA1, 0x02, 0x00, 0x04, 0x00, 0x00, 0x00, 0x00, 0x00, 0x00, 0x00, 0x00, 0x00,
          0xFF, 0xFF, 0x00, 0x00, l.extractLsb' 0 8, l.extractLsb' 8 8, l.extractLsb' 16 8, l.extractLsb' 24 8] := by
  cases big <;> rfl

theorem openWriter_ok {s : State} {as : List SinkAnswer} (h : s.env.answers = .ok :: as) :
    openWriter s = { s with
      cwu := { s.cwu with st := 0x00, cws := .opened }
      env := { s.env with answers := as, answersUsed := s.env.answersUsed + 1 }
      sink := s.offered ++ globalHeader s.cfg.capBigEndian s.cwu.ltype } := by
  have hwrite := sinkWrite_ok (s := { s with sink := s.offered }) (globalHeader_ne_nil s.cfg.capBigEndian s.cwu.ltype) h
  simp only [openWriter, hwrite, if_true, State.endCwu, mkSt_ok]

theorem openWriter_fail {s : State} {k : Nat} {as : List SinkAnswer} (h : s.env.answers = .fail k :: as)
    (hk : k < 24) :
    openWriter s = { s with
      cwu := { s.cwu with st := 0x03, cws := .closed }
      env := { s.env with answers := as, answersUsed := s.env.answersUsed + 1 }
      sink := s.offered ++ (globalHeader s.cfg.capBigEndian s.cwu.ltype).take k } := by
  have hlen : k < (globalHeader s.cfg.capBigEndian s.cwu.ltype).length := by rwa [globalHeader_length]
  have hwrite := sinkWrite_fail_lt (s := { s with sink := s.offered }) hlen h
  simp only [openWriter, hwrite, Bool.false_eq_true, if_false, raiseCwu, State.endCwu, mkSt_ioError]

/-! ### CWWRITE while OPEN, by the sink's answers (R214, R215, R217, R221) -/

/-- The state between the two sink writes of a CWWRITE: `d` is drawn and the header is in SINK (R215). -/
def State.headerWritten (s : State) (d : TimeDraw) (ds : List TimeDraw) (as : List SinkAnswer) : State :=
  { s with
    env := ⟨ds, s.env.timesUsed + 1, as, s.env.answersUsed + 1⟩
    sink := s.sink ++ recordHeader s.cfg.capBigEndian d s.cwu.buf.length }

section WriteRecord

variable {s : State} {d : TimeDraw} {ds : List TimeDraw} {as : List SinkAnswer} {k : Nat}
  (htimes : s.env.times = d :: ds)
include htimes

/-- A header that is taken leaves the frame's write to decide (R215). -/
theorem writeRecord_headerTaken (hans : s.env.answers = .ok :: as) :
    writeRecord s =
      if (sinkWrite s.cwu.buf (s.headerWritten d ds as)).1 then
        (sinkWrite s.cwu.buf (s.headerWritten d ds as)).2.endCwu .ok .opened
      else raiseCwu (sinkWrite s.cwu.buf (s.headerWritten d ds as)).2 .ioError .openFailed := by
  have hwrite := sinkWrite_ok (s := { s with env := { s.env with times := ds, timesUsed := s.env.timesUsed + 1 } })
    (recordHeader_ne_nil s.cfg.capBigEndian d s.cwu.buf.length) hans
  simp only [writeRecord, drawTime_cons htimes, hwrite, if_true]
  rfl

/-- A header that is not taken: the frame's write is not tried (R221, R245). -/
theorem writeRecord_headerFailed (hans : s.env.answers = .fail k :: as) (hk : k < 16) :
    writeRecord s = { s with
      cwu := { s.cwu with st := 0x03, cws := .openFailed }
      env := ⟨ds, s.env.timesUsed + 1, as, s.env.answersUsed + 1⟩
      sink := s.sink ++ (recordHeader s.cfg.capBigEndian d s.cwu.buf.length).take k } := by
  have hlen : k < (recordHeader s.cfg.capBigEndian d s.cwu.buf.length).length := by rwa [recordHeader_length]
  have hwrite := sinkWrite_fail_lt
    (s := { s with env := { s.env with times := ds, timesUsed := s.env.timesUsed + 1 } }) hlen hans
  simp only [writeRecord, drawTime_cons htimes, hwrite, Bool.false_eq_true, if_false, raiseCwu, State.endCwu,
    mkSt_ioError]

/-- Both writes are taken; a frame of at least one byte asks for the second answer. -/
theorem writeRecord_frameTaken (hbuf : s.cwu.buf ≠ []) (hans : s.env.answers = .ok :: .ok :: as) :
    writeRecord s = { s with
      cwu := { s.cwu with st := 0x00, cws := .opened }
      env := ⟨ds, s.env.timesUsed + 1, as, s.env.answersUsed + 2⟩
      sink := s.sink ++ recordHeader s.cfg.capBigEndian d s.cwu.buf.length ++ s.cwu.buf } := by
  have hframe := sinkWrite_ok (s := s.headerWritten d ds (.ok :: as)) hbuf rfl
  simp only [writeRecord_headerTaken htimes hans, hframe, if_true, State.endCwu, mkSt_ok]
  rfl

/-- The second write of an empty frame asks the sink nothing (log entry 7). -/
theorem writeRecord_emptyFrame (hbuf : s.cwu.buf = []) (hans : s.env.answers = .ok :: as) :
    writeRecord s = { s with
      cwu := { s.cwu with st := 0x00, cws := .opened }
      env := ⟨ds, s.env.timesUsed + 1, as, s.env.answersUsed + 1⟩
      sink := s.sink ++ recordHeader s.cfg.capBigEndian d 0 } := by
  have hframe : sinkWrite s.cwu.buf (s.headerWritten d ds as) = (true, s.headerWritten d ds as) := by
    rw [hbuf, sinkWrite_nil]
  rw [writeRecord_headerTaken htimes hans, hframe, if_pos rfl]
  simp only [State.endCwu, State.headerWritten, mkSt_ok, hbuf, List.length_nil]

/-- The header is taken and a part of the frame is kept (R221). -/
theorem writeRecord_frameFailed (hans : s.env.answers = .ok :: .fail k :: as) (hk : k < s.cwu.buf.length) :
    writeRecord s = { s with
      cwu := { s.cwu with st := 0x03, cws := .openFailed }
      env := ⟨ds, s.env.timesUsed + 1, as, s.env.answersUsed + 2⟩
      sink := s.sink ++ recordHeader s.cfg.capBigEndian d s.cwu.buf.length ++ s.cwu.buf.take k } := by
  have hframe := sinkWrite_fail_lt (s := s.headerWritten d ds (.fail k :: as)) hk rfl
  simp only [writeRecord_headerTaken htimes hans, hframe, Bool.false_eq_true, if_false, raiseCwu, State.endCwu,
    mkSt_ioError]
  rfl

end WriteRecord

/-! ### The statements -/

/-- Settles O39: the header's write is taken, then that of the frame, which is empty or not. -/
theorem cwwriteAppendsTheRecord : Obligations.CwwriteAppendsTheRecord := by
  intro s d ds as hopen hfits htimes
  have hexec := exec_cwwrite_opened hfits hopen
  refine ⟨fun hbuf hans => ?_, fun hbuf hans => ?_⟩
  · rw [hexec, writeRecord_frameTaken htimes hbuf hans]
  · rw [hexec, writeRecord_emptyFrame htimes hbuf hans]

/-- Settles O41: the header's write fails, or the frame's after it. -/
theorem cwwriteSinkFailure : Obligations.CwwriteSinkFailure := by
  intro s d ds as k hopen hfits htimes
  have hexec := exec_cwwrite_opened hfits hopen
  refine ⟨fun hans hk => ?_, fun hans hk => ?_⟩
  · rw [hexec, writeRecord_headerFailed htimes hans hk]
  · rw [hexec, writeRecord_frameFailed htimes hans hk]

/-- Settles O37: the one sink write is taken, and the header's bytes are R211's. -/
theorem cwopenWritesTheGlobalHeader : Obligations.CwopenWritesTheGlobalHeader := by
  intro s as hclosed hans
  rw [exec_cwopen_closed hclosed, openWriter_ok hans, globalHeader_bytes]

/-- Settles O38: the one sink write fails. -/
theorem cwopenSinkFailure : Obligations.CwopenSinkFailure := by
  intro s k as hclosed hans hk
  rw [exec_cwopen_closed hclosed, openWriter_fail hans hk]

/-- Settles O42: the error goes to ST; CWS, which it also writes, was CLOSED already. -/
theorem cwwriteWhileClosed : Obligations.CwwriteWhileClosed := by
  intro s hclosed hfits
  rw [exec_cwwrite_closed hfits hclosed, raiseCwu, State.endCwu, mkSt_closedWriter, ← hclosed]

/-- Settles O43: CWCLOSE writes ST and CWS, and a second one writes the same values. -/
theorem cwcloseReleasesTheSink : Obligations.CwcloseReleasesTheSink := by
  intro s
  refine ⟨by rw [exec_cwclose, State.endCwu, mkSt_ok], fun t h => ?_⟩
  obtain rfl := cwclose_next h
  exact exec_cwclose _

/-- Settles O59: the access writes the presented content and nothing else. -/
theorem presentedSinkWaits : Obligations.PresentedSinkWaits :=
  fun _ _ _ hin => step_access hin

end Sys2Proof.Machine

/-! Proofs of the exceptions family: operations of two DU instances leave the same in either order (O32). -/

namespace Sys2Proof.Machine

open Sys2Proof

/-! ### Two DU instances share nothing (R262) -/

section Disjoint

variable (s : State) {k m : Nat} (u w : Du) (hkm : k ≠ m)

include hkm

theorem State.setDu_getElem?_ne : (s.setDu k u).dus[m]? = s.dus[m]? := List.getElem?_set_ne hkm

theorem State.setDu_comm : (s.setDu k u).setDu m w = (s.setDu m w).setDu k u := by
  simp only [State.setDu, List.set_comm u w hkm]

end Disjoint

/-- Like `exec_du_replay`, but the two states need to agree on the parameters and the selected unit only, whatever the
other units hold. -/
theorem exec_du_replay_unit {i : Instr} {s t : State} (hi : i.unit = .du) (h : exec i s = .next t) :
    ∃ v, t = s.setDu s.sel v ∧ ∀ s' : State, s'.cfg = s.cfg → s'.dus[s'.sel]? = s.dus[s.sel]? →
      exec i s' = .next (s'.setDu s'.sel v) := by
  obtain ⟨u, a, hu, hf, ha, rfl⟩ := exec_du_next hi h
  refine ⟨_, rfl, fun s' hcfg hunit => ?_⟩
  have hat : AtDu s' u := ⟨hunit.trans hu, by rw [hcfg]; exact of_decide_eq_true hf⟩
  exact exec_leaves hi hat (by rw [hcfg, ha])

/-- Settles O32: each operation finds its own unit as it was, so it leaves the same unit in either order, and the two
replacements commute. -/
theorem dusDoNotInterfere : Obligations.DusDoNotInterfere := by
  intro i j s t₁ t₂ k m hi hj hkm h₁ h₂
  obtain ⟨v, rfl, replay_i⟩ := exec_du_replay_unit hi h₁
  obtain ⟨w, rfl, replay_j⟩ := exec_du_replay_unit hj h₂
  have first : exec j { s with sel := m } = .next (State.setDu { s with sel := m } m w) :=
    replay_j { s with sel := m } rfl (State.setDu_getElem?_ne s v hkm).symm
  have second : exec i { s.setDu m w with sel := k } = .next (State.setDu { s.setDu m w with sel := k } k v) :=
    replay_i { s.setDu m w with sel := k } rfl (State.setDu_getElem?_ne s w hkm.symm)
  refine ⟨_, first, second.trans ?_⟩
  exact congrArg (fun t : State => Host.Outcome.next { t with sel := k }) (State.setDu_comm s w v hkm.symm)

end Sys2Proof.Machine
